-- ==== Sys2Proof/Word.lean ====
section
/-! DEFINITION. The machine's plain number types: the word of host memory and of the register window, the
half-word, the byte of a trunk frame. Everything that cuts or joins bits stands in Machine/Bits.lean. -/

namespace Sys2Proof

/-- A word is 32 bits (Conventions of 00_scope.md). -/
abbrev Word := BitVec 32

/-- A half-word is 16 bits (Conventions of 00_scope.md). -/
abbrev Half := BitVec 16

/-- One byte of a trunk frame (R190). -/
abbrev Byte := BitVec 8

end Sys2Proof
end

