-- ==== Sys2Proof/Syntax.lean ====
section
/-! DEFINITION. The commands of the block: one constructor for each row of spec/opcode_table.json, in the table's
order. The HC410 is no processor: a command is a host access to the register window, an event of the trunk, of the
local bus or of a timer, or a step that the part takes by itself. -/

namespace Sys2Proof

/-- The four trunk rates (R143, R163). -/
inductive Rate where
  | mbit1p5
  | mbit3
  | mbit6
  | mbit12
deriving DecidableEq, Repr

/-- A frame as it stands on the line: its bytes, the trunk rate at which they were sent, and the mark of a frame that was
in reception when the station's own rate changed, to whatever rate (R163, R172; log entry 24). -/
structure Reception where
  bytes : List Byte
  rate : Rate
  rateChanged : Bool
deriving DecidableEq, Repr

/-- The steps of the part, one constructor per row of the table. The seventeen host commands are host writes of the
command register with their code (R176, R195); their arguments lie in the four argument registers, which are state,
so these constructors carry no operand. -/
inductive Instr where
  /-- POWER_ON_RESET, with the levels of the six strap pins it samples (R142). -/
  | powerOnReset (straps : BitVec 6)
  /-- CONFIGURE, command code 0x01 (R144). -/
  | configure
  /-- JOIN, command code 0x02 (R147). -/
  | join
  /-- LEAVE, command code 0x03 (R156). -/
  | leave
  /-- RESET, command code 0x04 (R162). -/
  | reset
  /-- START, command code 0x05 (R28). -/
  | start
  /-- STOP, command code 0x06 (R38). -/
  | stop
  /-- RESUME, command code 0x07 (R30). -/
  | resume
  /-- WINDOW_SET, command code 0x08 (R119). -/
  | windowSet
  /-- HOLD, command code 0x09 (R120). -/
  | hold
  /-- RELEASE, command code 0x0A (R121). -/
  | release
  /-- FLIP, command code 0x0B (R122). -/
  | flip
  /-- CLOSE, command code 0x0C (R123). -/
  | close
  /-- BOOK, command code 0x0D (R139). -/
  | book
  /-- UNBOOK, command code 0x0E (R140). -/
  | unbook
  /-- NOTICE, command code 0x0F (R131). -/
  | notice
  /-- EVENT_RING_RESET, command code 0x10 (R188). -/
  | eventRingReset
  /-- COUNTERS_CLEAR, command code 0x11 (R178). -/
  | countersClear
  /-- PENDING_COMMAND_TAKEN: the waiting CONFIGURE or EVENT_RING_RESET is taken (R176). -/
  | pendingCommandTaken
  /-- LIST_ADDRESS_WRITE, with the word the host writes (R2). -/
  | listAddressWrite (value : Word)
  /-- LIST_DATA_READ (R2). -/
  | listDataRead
  /-- LIST_DATA_WRITE, with the word the host writes (R2). -/
  | listDataWrite (value : Word)
  /-- CONSUMER_INDEX_WRITE, with the word the host writes (R180). -/
  | consumerIndexWrite (value : Word)
  /-- STATUS_WRITE, with the word the host writes (R175). -/
  | statusWrite (value : Word)
  /-- INTERRUPT_ENABLE_WRITE, with the word the host writes (R181). -/
  | interruptEnableWrite (value : Word)
  /-- REGISTER_WRITE of word `register` of the register window, byte offset 4 times that (R175, R195). -/
  | registerWrite (register : Fin 16) (value : Word)
  /-- COMMAND_WRITE_WHILE_EXECUTING, with the word written to the command register (R176). -/
  | commandWriteWhileExecuting (value : Word)
  /-- UNKNOWN_COMMAND_CODE, with the word written to the command register (R177). -/
  | unknownCommandCode (value : Word)
  /-- CONTENTION_SLOT, with the lowest contention key that any other station drives in it (R165). -/
  | contentionSlot (rival : Option Byte)
  /-- TRY_END, with the bytes received as the echo of the try, none when nothing was received (R168). -/
  | tryEnd (echo : List Byte)
  /-- OWN_NOTICE_HEARD, with the bytes of the echo (R133). -/
  | ownNoticeHeard (echo : List Byte)
  /-- RECEIVE_FRAME, with the frame that ends on the line (R163, R172). -/
  | receiveFrame (frame : Reception)
  /-- DEADLINE_EXPIRY of a tag's reply deadline (R62). -/
  | deadlineExpiry (tag : Fin 16)
  /-- RETRY_EXPIRY of a tag's retry interval (R64). -/
  | retryExpiry (tag : Fin 16)
  /-- COOLING_EXPIRY of a tag's cooling time (R69). -/
  | coolingExpiry (tag : Fin 16)
  /-- WAIT_TIMER_EXPIRY of a channel's wait timer (R34). -/
  | waitTimerExpiry (channel : Fin 4)
  /-- LISTENING_TIMER_EXPIRY (R148). -/
  | listeningTimerExpiry
  /-- PRESENCE_TIMER_EXPIRY (R149). -/
  | presenceTimerExpiry
  /-- SILENCE_TIMER_EXPIRY of the roster entry of a station address (R154). -/
  | silenceTimerExpiry (station : Nat)
  /-- PREPARE_SEGMENT by a channel (R51). -/
  | prepareSegment (channel : Fin 4)
  /-- TAG_GRANT by the allocator (R53). -/
  | tagGrant
  /-- NOTICE_PLACE_GRANT by the notice unit (R129). -/
  | noticePlaceGrant
  /-- BUS_GRANT by the host-bus arbiter (R99). -/
  | busGrant
  /-- BURST_RESPONSE of the local bus: whether it is an error response, and the words that a read burst brings,
  of which a burst of n words takes the first n (R98). -/
  | burstResponse (error : Bool) (data : Vector Word 16)
  /-- EVENT_WRITE_BEGIN by the event writer (R183). -/
  | eventWriteBegin
  /-- CHANNEL_ENTER_REPORTING by a STOPPING or FAILING channel (R36). -/
  | channelEnterReporting (channel : Fin 4)
  /-- WINDOW_COMPLETION: the completion conditions of a window are tested (R124). -/
  | windowCompletion (window : Fin 16)
  /-- FAREWELL_OFFER by station control (R158). -/
  | farewellOffer
deriving DecidableEq, Repr

end Sys2Proof
end

