-- ==== Sys2Proof/Decode.lean ====
section
/-! DEFINITION. Reading a command from a word of the table's bits. No row of the table has bits: the HC410 fetches and
decodes nothing, and a command is an access of the host or an event. -/

namespace Sys2Proof

/-- The command that a word spells by the table's bits: none, since no row of the table gives any (log entry 29). -/
def decodeTableWord (_nbits _w : Nat) : Option Instr := none

end Sys2Proof
end

