-- ==== Sys2Proof/Config.lean ====
section
/-! DEFINITION. What the manual leaves open and the model leaves free: constants with no body, so that no proof can
see their value. -/

namespace Sys2Proof.Config

/-- DESIGN CHOICE (log entry 5), safe: the byte that bits 31:24 of word 2 of a CH_HALTED record hold when the
resume segment does not fit them. R26 gives the resume segment the range 0-255; a channel that fails while its
last segments are in flight, and sees all of them accepted, has none left at or below 255 when its entry has 256
segments. The manual states no value for the field then. -/
opaque unstatedResumeByte : Nat → BitVec 8

end Sys2Proof.Config
end

