-- ==== Sys2Proof/Machine/State.lean ====
section
/-! DEFINITION. Everything the spec gives the HC410, as plain data, block by block in the order of the chapters, with
the values after a power-on reset. Counts that the spec keeps beside the records they count (a channel's outstanding
tags, a window's in-work counts, the reply slots taken) are computed from those records in Machine/Ops.lean, so that
they cannot disagree with them. -/

namespace Sys2Proof.Machine

/-! ## Timers -/

/-- A timer: stopped, or running since it was started with this many of its own units (00_scope.md, Numbers and
units). Time does not pass in the model: an expiry is a command of its own, possible while the timer runs. -/
inductive Timer where
  | stopped
  | running (units : Nat)
deriving DecidableEq, Repr

/-! ## Transaction lists (01) -/

/-- The four words of a list entry (R1, R192). -/
structure Entry where
  w0 : Word
  w1 : Word
  w2 : Word
  w3 : Word
deriving DecidableEq, Repr

/-- The all-zero entry, which is an END (R1). -/
def Entry.zero : Entry := ⟨0, 0, 0, 0⟩

/-! ## Outcomes, errors and event records (02, 04, 10) -/

/-- The reason of a NOT_READY (R60). -/
inductive Reason where
  | held
  | busy
  | leaving
deriving DecidableEq, Repr

/-- The outcomes of an attempt and of an entry (R60, R75). -/
inductive Result where
  /-- ACCEPTED to a READ or WRITE. -/
  | accepted
  /-- ACCEPTED to a CLAIM, WON, with the previous value. -/
  | won (previous : Word)
  /-- ACCEPTED to a CLAIM, LOST, with the previous value. -/
  | lost (previous : Word)
  | notReady (reason : Reason)
  | refused
  | noWindow
  | range
  | remoteFault
  | timeout
  | absent
  | peerLost
  | link
  | bookingIdle
  | waitTimeout
deriving DecidableEq, Repr

/-- The channel error codes, in the order of R193. -/
inductive HaltError where
  | refused
  | noWindow
  | range
  | notReady
  | remoteFault
  | timeout
  | absent
  | peerLost
  | link
  | claimLost
  | uncertain
  | persistExhausted
  | chainShort
  | hostFault
  | badEntry
  | waitTimeout
  | bookingIdle
  | left
  | excluded
deriving DecidableEq, Repr

/-- The detail of a halt: station, status and value, each absent where R42 does not fill it. The status is kept as
the code of R193. -/
structure HaltDetail where
  station : Option Nat
  status : Option Nat
  value : Option Word
deriving DecidableEq, Repr

/-- All three parts absent. -/
def HaltDetail.none : HaltDetail := ⟨.none, .none, .none⟩

/-- Who started a channel's list (R26). -/
inductive StartSource where
  | host
  | booking (n : Fin 16)
deriving DecidableEq, Repr

/-- The halves of a window (R104). -/
inductive WindowHalf where
  | a
  | b
deriving DecidableEq, Repr

/-- Why a peer was lost (R153, R154). -/
inductive LossReason where
  | silent
  | leaving
  | restarted
deriving DecidableEq, Repr

/-- The STATION records (R146, R193). -/
inductive StationEvent where
  | joined
  | joinFailed
  | left
  | excluded
deriving DecidableEq, Repr

/-- The event records (R193), without the producer index, which the writer adds when it writes one. -/
inductive Event where
  | chDone (channel : Fin 4) (source : StartSource)
  | chStopped (channel : Fin 4) (source : StartSource)
  | chHalted (channel : Fin 4) (source : StartSource) (entry : Nat) (error : Option HaltError) (detail : HaltDetail)
      (resumeSegment : Nat)
  | chMark (channel : Fin 4) (entry : Nat) (code : Nat)
  | chTolerated (channel : Fin 4) (entry : Nat) (count : Nat) (last : Option Result)
  | noticeSeen (booking : Fin 16) (source : Nat) (code : Nat) (argument : Nat)
  | startMissed (booking : Fin 16) (channel : Fin 4)
  | noticeSendFailed (code : Nat) (destination : Nat)
  | windowHeld (window : Fin 16)
  | windowFlipped (window : Fin 16) (published : WindowHalf)
  | windowClosed (window : Fin 16)
  | peerJoined (station : Nat) (incarnation : Byte)
  | peerLost (station : Nat) (reason : LossReason)
  | station (what : StationEvent)
  | eventsDropped (count : Nat)
deriving DecidableEq, Repr

/-! ## Buffer chains and the memory access unit (05) -/

/-- One piece of a placement: a host word address and a word count (R92). -/
structure Piece where
  addr : Word
  count : Nat
deriving DecidableEq, Repr

/-- The chain walk of a channel (R91). -/
structure Walk where
  descriptorAddress : Word
  regionBase : Word
  regionLength : Nat
  last : Bool
  regionStart : Nat
  offset : Nat
deriving DecidableEq, Repr

/-- A request to the walk that is being answered: the next chain position wanted, how many words are still wanted, and
the pieces found so far (R92). -/
structure WalkRequest where
  position : Nat
  left : Nat
  pieces : List Piece
deriving DecidableEq, Repr

/-- A host read of consecutive words in progress: the address of its first word, the address and number of the words
still to come, the words read, and whether its first burst has been granted (R98). -/
structure ReadAccess where
  base : Word
  next : Word
  left : Nat
  got : List Word
  begun : Bool
deriving DecidableEq, Repr

/-- A host write of consecutive words in progress: the address of its first word, the address of the next one, and the
words still to be written (R98). -/
structure WriteAccess where
  base : Word
  next : Word
  words : List Word
deriving DecidableEq, Repr

/-- Where a preparation stands: fetching a descriptor for the walk, or reading a WRITE segment's words, piece by piece
(R51, R93). -/
inductive PrepStage where
  | fetching (request : WalkRequest) (access : ReadAccess)
  | payload (placement : List Piece) (got : List Word) (access : ReadAccess) (later : List Piece)
deriving DecidableEq, Repr

/-- A segment being prepared. `dropped` is set when its channel has left RUNNING: the access in flight runs to its end
and its result is not used (R39, R51). -/
structure Preparation where
  segment : Nat
  stage : PrepStage
  dropped : Bool
deriving DecidableEq, Repr

/-- A prepared segment waiting for a tag, with its placement (R51). -/
structure PreparedSegment where
  segment : Nat
  placement : List Piece
deriving DecidableEq, Repr

/-- What a sweep record is about (R87). -/
structure SweepRecord where
  station : Nat
  result : Result
  words : List Word
deriving DecidableEq, Repr

/-- Where a completion write stands: placing a sweep record's data words, with the header's address, or writing its
accesses in order (R94, R95). -/
inductive WriteStage where
  | placing (header : Word) (request : WalkRequest) (access : ReadAccess)
  | writing (accesses : List WriteAccess)
deriving DecidableEq, Repr

/-- A completion write of a channel: the tag it completes (absent once exclusion has freed the tag), the segment, the
sweep record it writes if it is a RECORD write, and whether its first access has been granted (R67, R94, R95). -/
structure CompletionWrite where
  tag : Option (Fin 16)
  segment : Nat
  record : Option SweepRecord
  stage : WriteStage
  begun : Bool
deriving DecidableEq, Repr

/-- The requesters of the host-bus arbiter (R99). -/
inductive Requester where
  | writer
  | responder
  | engine
deriving DecidableEq, Repr

/-- The arbiter's priority order, highest first (R99). -/
structure BusOrder where
  first : Requester
  second : Requester
  third : Requester
deriving DecidableEq, Repr

/-- Whose burst is on the local bus. -/
inductive BurstOwner where
  | writer
  | responder
  | preparation (channel : Fin 4)
  | completion (channel : Fin 4)
deriving DecidableEq, Repr

/-- The burst in progress: its owner, its first word's address, its length, and, of a write burst, the words (R98). -/
structure Burst where
  owner : BurstOwner
  addr : Word
  count : Nat
  write : Option (List Word)
deriving DecidableEq, Repr

/-- What the memory access unit holds (R103). -/
structure MemoryUnit where
  order : BusOrder
  engineLast : Fin 4
  lock : Bool
  burst : Option Burst
deriving DecidableEq, Repr

/-- R99, R100, R103: event writer, responder, engine; last channel 3; no burst; lock released. -/
def MemoryUnit.reset : MemoryUnit := ⟨⟨.writer, .responder, .engine⟩, 3, false, none⟩

/-! ## Channels (02) -/

/-- The seven channel states (R27). -/
inductive ChannelState where
  | idle
  | running
  | waiting
  | stopping
  | failing
  | reporting
  | halted
deriving DecidableEq, Repr

/-- A NOTICE entry's wait (R26). -/
inductive NoticeWait where
  | absent
  | place
  | echo
deriving DecidableEq, Repr

/-- The channel context (R26), with the accesses the channel has in hand (R100) and the mark that its current entry
has not been begun (R44). -/
structure Channel where
  state : ChannelState
  entryIndex : Nat
  entryUnbegun : Bool
  captured : Entry
  nextSegment : Nat
  completed : Nat
  tolerated : Nat
  lastTolerated : Option Result
  resumeSegment : Option Nat
  sweepCursor : Nat
  sweepPosition : Nat
  walk : Option Walk
  prepared : Option PreparedSegment
  issueBuffer : List Word
  sweepHeader : Option Word
  noticeWait : NoticeWait
  heldSlot : Option Event
  haltError : Option HaltError
  haltDetail : HaltDetail
  startSource : StartSource
  waitBooking : Option (Fin 16)
  waitTimer : Timer
  preparation : Option Preparation
  writes : List CompletionWrite
deriving DecidableEq, Repr

/-- Sixteen zero words: the reset contents of an issue buffer and of a tag's payload (R26, R48). -/
def zeroWords : List Word := List.replicate 16 0

/-- The reset values of R26. -/
def Channel.reset : Channel where
  state := .idle
  entryIndex := 0
  entryUnbegun := false
  captured := Entry.zero
  nextSegment := 0
  completed := 0
  tolerated := 0
  lastTolerated := none
  resumeSegment := none
  sweepCursor := 1
  sweepPosition := 0
  walk := none
  prepared := none
  issueBuffer := zeroWords
  sweepHeader := none
  noticeWait := .absent
  heldSlot := none
  haltError := none
  haltDetail := HaltDetail.none
  startSource := .host
  waitBooking := none
  waitTimer := .stopped
  preparation := none
  writes := []

/-! ## Tags (03) -/

/-- The operations of a request (R48, R164). -/
inductive Operation where
  | read
  | write
  | claim
deriving DecidableEq, Repr

/-- The five tag states (R49). -/
inductive TagState where
  | free
  | queued
  | sent
  | backoff
  | cooling
deriving DecidableEq, Repr

/-- The tag record (R48), with the try count that the trunk interface keeps for the current attempt (R168), the repeat
flag that its frame carries (R65, R107), whether an earlier attempt of its transaction was on the line with its present
generation and with the other one (R65), and, of a READ sweep's segment, the address where its record's header goes: the
channel's header placement as it stood at the grant, for the record that is still written after the channel has left
RUNNING (R26, R41, R95; log entry 14). -/
structure Tag where
  state : TagState
  owner : Option (Fin 4)
  segment : Nat
  sweep : Bool
  operation : Operation
  target : Nat
  window : Nat
  offset : Nat
  count : Nat
  generation : Bool
  attempts : Nat
  onLine : Bool
  lastAnswered : Bool
  unanswered : Bool
  completing : Bool
  lastOutcome : Option Result
  destination : Option (List Piece)
  payload : List Word
  timer : Timer
  tries : Nat
  repeated : Bool
  sameOnLine : Bool
  otherOnLine : Bool
  header : Option Word
deriving DecidableEq, Repr

/-- The reset values of R48. -/
def Tag.reset : Tag where
  state := .free
  owner := none
  segment := 0
  sweep := false
  operation := .read
  target := 1
  window := 0
  offset := 0
  count := 1
  generation := false
  attempts := 1
  onLine := false
  lastAnswered := false
  unanswered := false
  completing := false
  lastOutcome := none
  destination := none
  payload := zeroWords
  timer := .stopped
  tries := 0
  repeated := false
  sameOnLine := false
  otherOnLine := false
  header := none

/-- The transaction engine: the channels, the tags and the allocator's last served channel (R26, R48, R53). -/
structure Engine where
  channels : Vector Channel 4
  tags : Vector Tag 16
  lastServed : Fin 4
deriving DecidableEq, Repr

/-- R47, R74. -/
def Engine.reset : Engine := ⟨Vector.replicate 4 Channel.reset, Vector.replicate 16 Tag.reset, 3⟩

/-! ## Windows and the responder (06) -/

/-- The four window states (R105). -/
inductive WindowState where
  | closed
  | opened
  | held
  | closing
deriving DecidableEq, Repr

/-- The access of a window (R104). -/
inductive Access where
  | readOnly
  | writeOnly
  | readWrite
deriving DecidableEq, Repr

/-- The window record (R104). Station s is in the permit set when bit s - 1 is set. -/
structure Window where
  state : WindowState
  access : Access
  paired : Bool
  baseA : Word
  baseB : Word
  size : Nat
  permit : BitVec 40
  published : WindowHalf
  holdPending : Bool
  flipPending : Bool
  events : List Event
deriving DecidableEq, Repr

/-- The reset values of R104. -/
def Window.reset : Window := ⟨.closed, .readOnly, false, 0, 0, 1, 0, .a, false, false, []⟩

/-- A work item (R111). -/
structure WorkItem where
  source : Nat
  tag : Fin 16
  generation : Bool
  operation : Operation
  window : Fin 16
  offset : BitVec 16
  count : Byte
  half : WindowHalf
  addr : Word
  payload : List Word
  memoDue : Bool
deriving DecidableEq, Repr

/-- Where the access of the executing item stands (R101, R102). -/
inductive ItemStage where
  | reading (access : ReadAccess)
  | writing (access : WriteAccess)
  | claimRead
  | claimWrite (previous : Word)
deriving DecidableEq, Repr

/-- The execution of the item at the head of the work queue. `discarded` is set by an exclusion: the access runs to its
end, and no reply and no memo follow (R126). -/
structure Execution where
  stage : ItemStage
  discarded : Bool
deriving DecidableEq, Repr

/-- A CLAIM memo that is not empty (R117). -/
structure Memo where
  tag : Fin 16
  generation : Bool
  previous : Word
  won : Bool
deriving DecidableEq, Repr

/-- The responder: windows, work queue, the execution in progress, and one memo per station address, that of address
a at index a - 1 (R104, R112, R117). -/
structure Responder where
  windows : Vector Window 16
  queue : List WorkItem
  execution : Option Execution
  memos : Vector (Option Memo) 40
deriving DecidableEq, Repr

/-- R127. -/
def Responder.reset : Responder := ⟨Vector.replicate 16 Window.reset, [], none, Vector.replicate 40 none⟩

/-! ## Notices and bookings (07) -/

/-- Who placed a notice frame (R128). -/
inductive Origin where
  | host
  | channel (c : Fin 4)
  | detached
deriving DecidableEq, Repr

/-- A frame of the notice transmit queue (R128), with its try count (R168). -/
structure QueuedNotice where
  destination : Nat
  code : Nat
  argument : Nat
  origin : Origin
  tries : Nat
deriving DecidableEq, Repr

/-- The three booking states (R134). -/
inductive BookingState where
  | free
  | armed
  | spent
deriving DecidableEq, Repr

/-- The booking record (R134). The source filter is absent for ANY. -/
structure Booking where
  state : BookingState
  filter : Option Nat
  code : Nat
  post : Bool
  start : Bool
  release : Bool
  startChannel : Nat
  startEntry : Nat
  once : Bool
  matchCount : Nat
  latch : Bool
deriving DecidableEq, Repr

/-- The reset values of R134. -/
def Booking.reset : Booking := ⟨.free, none, 1, false, false, false, 0, 0, true, 0, false⟩

/-- A notice as the notice unit takes it (R133). -/
structure NoticeArrival where
  source : Nat
  code : Nat
  argument : Nat
deriving DecidableEq, Repr

/-- The notice unit: the transmit queue, its last served channel, the bookings, and the station's own notices whose
complete echo has not been evaluated yet (R128, R130, R134). -/
structure NoticeUnit where
  queue : List QueuedNotice
  lastServed : Fin 4
  bookings : Vector Booking 16
  ownEchoes : List NoticeArrival
deriving DecidableEq, Repr

/-- R132, R141. -/
def NoticeUnit.reset : NoticeUnit := ⟨[], 3, Vector.replicate 16 Booking.reset, []⟩

/-! ## Station control and the roster (08) -/

/-- The five station states (R145). -/
inductive StationState where
  | offline
  | listening
  | joined
  | leaving
  | excluded
deriving DecidableEq, Repr

/-- The configuration record (R143). The ring size is kept as its code k, for 16 times 2 to the k records (R195). -/
structure Configuration where
  incarnation : Byte
  presenceInterval : Byte
  replyDeadline : Byte
  retryInterval : Byte
  rate : Rate
  ringBase : Word
  ringCode : Fin 9
  ringConfigured : Bool
deriving DecidableEq, Repr

/-- The reset values of R143. -/
def Configuration.reset : Configuration := ⟨0, 10, 20, 10, .mbit3, 0, 0, false⟩

/-- A pending presence frame, as made (R149), with its try count (R168). -/
structure Presence where
  incarnation : Byte
  fresh : Bool
  leaving : Bool
  interval : Byte
  mask : BitVec 16
  tries : Nat
deriving DecidableEq, Repr

/-- A roster entry (R152). -/
structure Peer where
  present : Bool
  incarnation : Byte
  mask : BitVec 16
  interval : Byte
  silence : Timer
deriving DecidableEq, Repr

/-- The cleared values of R152. -/
def Peer.reset : Peer := ⟨false, 0, 0, 1, .stopped⟩

/-- Station control and the roster, the entry of address a at index a - 1 (R142, R143, R146, R152). -/
structure Station where
  state : StationState
  strap : BitVec 6
  config : Configuration
  listeningTimer : Timer
  presenceTimer : Timer
  fresh : Bool
  pending : Option Presence
  farewellOffered : Bool
  events : List StationEvent
  roster : Vector Peer 40
deriving DecidableEq, Repr

/-- R143, R146, R152, with the given levels of the strap pins. -/
def Station.reset (strap : BitVec 6) : Station :=
  ⟨.offline, strap, Configuration.reset, .stopped, .stopped, false, none, false, [], Vector.replicate 40 Peer.reset⟩

/-! ## The trunk interface (09) -/

/-- The status of a reply (R164, R190). -/
inductive Status where
  | accepted
  | notReady (reason : Reason)
  | refused
  | noWindow
  | range
  | fault
deriving DecidableEq, Repr

/-- A reply the responder has made (R110, R115). -/
structure Reply where
  destination : Nat
  tag : Fin 16
  generation : Bool
  status : Status
  won : Bool
  window : Byte
  offset : BitVec 16
  count : Byte
  payload : List Word
deriving DecidableEq, Repr

/-- A frame of the reply queue, in a reserved or an immediate slot (R171), with its try count (R168). -/
structure QueuedReply where
  reply : Reply
  reserved : Bool
  tries : Nat
deriving DecidableEq, Repr

/-- Which frame a try is of. -/
inductive TryFrame where
  | reply
  | presence (fresh : Bool)
  | notice (destination : Nat) (arrival : NoticeArrival)
  | request (tag : Fin 16)
deriving DecidableEq, Repr

/-- What has become of the frame since its try began (R170). -/
inductive TryFate where
  /-- The frame is still offered: the end of the try is acted on. -/
  | live
  /-- The frame was withdrawn or flushed: the end of the try is not acted on. -/
  | withdrawn
  /-- The presence was replaced by a newer one: its echo acts on the fresh flag alone (R149). -/
  | replaced
deriving DecidableEq, Repr

/-- The try on the line: its frame, the bytes sent, what became of the frame, and whether the complete echo has
already been taken by the notice unit (R21, R168, R170). -/
structure Try where
  frame : TryFrame
  bytes : List Byte
  fate : TryFate
  heard : Bool
deriving DecidableEq, Repr

/-- The trunk interface (R165 to R174). -/
structure Trunk where
  replies : List QueuedReply
  yielding : Bool
  pointer : Fin 16
  line : Option Try
deriving DecidableEq, Repr

/-- R174. -/
def Trunk.reset : Trunk := ⟨[], false, 0, none⟩

/-! ## The host port (10) -/

/-- The result codes, in the order of R195. -/
inductive CommandResult where
  | none
  | done
  | accepted
  | busy
  | badState
  | badArg
deriving DecidableEq, Repr

/-- A command that waits for the record write in flight, with the arguments copied at its write (R176). -/
inductive WaitingCommand where
  | configure (arguments : Vector Word 4)
  | eventRingReset
deriving DecidableEq, Repr

/-- A record write in flight: its source among the 22 of R183, absent for EVENTS_DROPPED, its event, and the producer
index it carries (R184). -/
structure RecordWrite where
  source : Option (Fin 22)
  event : Event
  index : BitVec 16
deriving DecidableEq, Repr

/-- The five counters (R178). -/
structure Counters where
  checkErrors : Nat
  staleReplies : Nat
  droppedRequests : Nat
  abandonedFrames : Nat
  droppedEvents : Nat
deriving DecidableEq, Repr

/-- R178: all 0. -/
def Counters.reset : Counters := ⟨0, 0, 0, 0, 0⟩

/-- The command unit and the register window (R2, R175, R176). `readData` is the model's own: the word that the last
LIST_DATA_READ returned to the host. -/
structure Port where
  arguments : Vector Word 4
  result : CommandResult
  executing : Option WaitingCommand
  listAddress : BitVec 12
  readData : Word
  enableRecords : Bool
  enableFault : Bool
deriving DecidableEq, Repr

/-- R175, R189: the values after a power-on reset. -/
def Port.reset : Port := ⟨Vector.replicate 4 0, .none, none, 0, 0, false, false⟩

/-- The event writer and its ring (R179 to R187). The last source 21 is the droppable slots. -/
structure Writer where
  producer : BitVec 16
  consumer : BitVec 16
  eventFault : Bool
  ringError : Bool
  inFlight : Option RecordWrite
  slots : List Event
  dropCount : Nat
  lastServed : Fin 22
deriving DecidableEq, Repr

/-- R189: the values after a power-on reset. -/
def Writer.reset : Writer := ⟨0, 0, false, false, none, [], 0, 21⟩

/-! ## The machine -/

/-- The state of one HC410, and the queue of the commands that wait for it, first in, first out. -/
structure State where
  /-- The list store: pairs of a store word address and a word, addresses rising, no word zero (R1, R2). -/
  listStore : List (Nat × Word)
  engine : Engine
  memory : MemoryUnit
  responder : Responder
  notices : NoticeUnit
  station : Station
  trunk : Trunk
  port : Port
  counters : Counters
  writer : Writer
  /-- The commands that wait, the next one first. -/
  pending : List Instr
deriving DecidableEq, Repr

/-- The machine right after a power-on reset with the given levels of the strap pins (R1, R47, R74, R103, R127, R132,
R141, R142, R143, R146, R152, R174, R175, R178, R189). -/
def State.powerOn (strap : BitVec 6) : State where
  listStore := []
  engine := Engine.reset
  memory := MemoryUnit.reset
  responder := Responder.reset
  notices := NoticeUnit.reset
  station := Station.reset strap
  trunk := Trunk.reset
  port := Port.reset
  counters := Counters.reset
  writer := Writer.reset
  pending := []

/-- The machine right after reset. The levels of the strap pins belong to the board and the spec gives none:
DESIGN CHOICE (log entry 1), all low, an address the station cannot join with. -/
def State.reset : State := State.powerOn 0

/-- The ways the machine can fault: none. The spec gives every command an effect in every state, so no meaning
stops. Nothing raises a fault, which is safe: no behaviour is left out by one. -/
inductive Fault where
deriving DecidableEq, Repr

/-- The ways the machine can refuse a command. -/
inductive Refusal where
  /-- Raised by no meaning: every row of the table has its meaning. It would be raised by an arm of `exec` whose row
  had none, which would be safe. -/
  | notModelled (mnemonic : String)
deriving DecidableEq, Repr

end Sys2Proof.Machine
end

