-- ==== Sys2Proof/WellFormed.lean ====
section
/-! DEFINITION. Which commands are the case their row of the table names. The machine gives every term of `Instr` a
meaning all the same: a register write or a command write outside its row's own case takes the effect of the register
or of the code that it names. -/

namespace Sys2Proof.Instr

/-- A station address of the trunk is 1-40 (Conventions, R142). -/
def isStation (a : Nat) : Bool := 1 ≤ a && a ≤ 40

/-- The command code of a word written to the command register: bits 7:0 (R194). -/
def commandCode (value : Word) : Nat := (value.extractLsb' 0 8).toNat

/-- The register words that have a row, and so a behaviour, of their own: status, command, list address, list data,
consumer index and interrupt enable (R195). -/
def hasOwnRow (register : Fin 16) : Bool :=
  register.val ∈ [0, 1, 7, 8, 10, 11]

/-- The row's own case: a rival key holds the address of another station, an expiring silence timer is that of a
station, a register write names a register with no row
of its own, and the two refused command writes name the codes their rows are about. -/
def WellFormed : Instr → Bool
  | .registerWrite r _ => !hasOwnRow r
  | .commandWriteWhileExecuting w => commandCode w != 4
  | .unknownCommandCode w => !(1 ≤ commandCode w && commandCode w ≤ 17)
  | .contentionSlot (some key) => isStation (key.extractLsb' 0 6).toNat
  | .silenceTimerExpiry a => isStation a
  | _ => true

end Sys2Proof.Instr
end

