-- ==== Sys2Proof/Machine/Bits.lean ====
section
/-! DEFINITION. Bit fields, byte order, saturation, and updates of fixed tables. -/

namespace Sys2Proof.Machine

/-- Bits lo + len - 1 down to lo of a word, as a number (11_formats.md, "bits h:l"). -/
def field (w : Word) (lo len : Nat) : Nat := (w.extractLsb' lo len).toNat

/-- Bit i of a word. -/
def bit (w : Word) (i : Nat) : Bool := w.getLsbD i

/-- A number placed in a word with its lowest bit at bit lo. -/
def place (n lo : Nat) : Word := (BitVec.ofNat 32 n) <<< lo

/-- A flag placed in a word at bit lo. -/
def flagAt (b : Bool) (lo : Nat) : Word := place b.toNat lo

/-- The four bytes of a word, low byte first (00_scope.md, Numbers and units). -/
def wordBytes (w : Word) : List Byte :=
  [w.extractLsb' 0 8, w.extractLsb' 8 8, w.extractLsb' 16 8, w.extractLsb' 24 8]

/-- The two bytes of a half-word, low byte first. -/
def halfBytes (h : Half) : List Byte := [h.extractLsb' 0 8, h.extractLsb' 8 8]

/-- Two bytes joined to a half-word, low byte first. -/
def joinHalf (lo hi : Byte) : Half := hi ++ lo

/-- Whole words from bytes, low byte first; bytes beyond the last whole word are dropped. -/
def joinWords : List Byte → List Word
  | b0 :: b1 :: b2 :: b3 :: rest => (b3 ++ b2 ++ b1 ++ b0) :: joinWords rest
  | _ => []

/-- One more, staying at 65535 once there (R178). -/
def satInc (n : Nat) : Nat := min (n + 1) 65535

/-- Some more, staying at 65535 once there (R178, R186). -/
def satAdd (n k : Nat) : Nat := min (n + k) 65535

/-- Every place of a table changed by one function. -/
def mapAll {α : Type} {n : Nat} (f : α → α) (v : Vector α n) : Vector α n := Vector.ofFn fun i : Fin n => f v[i]

/-- The table index of a station address 1-40, the entry of address a at index a - 1. -/
def stationIndex (a : Nat) : Option (Fin 40) :=
  if h : 1 ≤ a ∧ a ≤ 40 then some ⟨a - 1, by omega⟩ else none

/-- The four numbers 0 to 3 in the order that begins with the one after `last` (R53, R100, R129). -/
def rotation4 (last : Fin 4) : List (Fin 4) := [last + 1, last + 2, last + 3, last]

end Sys2Proof.Machine
end

