-- ==== Sys2Proof/Machine/Operands.lean ====
section
/-! DEFINITION. The operand forms: the fields of a list entry (R5, R192), the fields of the argument registers
(R195), and the words and bytes written to the other registers (R194). -/

namespace Sys2Proof.Machine

/-! ## List entries -/

/-- The eight entry kinds (R5). -/
inductive Kind where
  | endList
  | read
  | write
  | writeImmediate
  | claim
  | notice
  | wait
  | mark
deriving DecidableEq, Repr

/-- The four dispositions (R5). -/
inductive Disposition where
  | strict
  | tolerant
  | persist
  | sweep
deriving DecidableEq, Repr

/-- Kind values 0-7 of R192; 8-15 name none. -/
def Kind.ofCode : Nat → Option Kind
  | 0 => some .endList
  | 1 => some .read
  | 2 => some .write
  | 3 => some .writeImmediate
  | 4 => some .claim
  | 5 => some .notice
  | 6 => some .wait
  | 7 => some .mark
  | _ => none

/-- Disposition values 0-3 of R192; 4-7 name none. -/
def Disposition.ofCode : Nat → Option Disposition
  | 0 => some .strict
  | 1 => some .tolerant
  | 2 => some .persist
  | 3 => some .sweep
  | _ => none

/-- Word 0 bits 3:0 (R192). -/
def Entry.kindCode (e : Entry) : Nat := field e.w0 0 4
/-- Word 0 bits 6:4 (R192). -/
def Entry.dispositionCode (e : Entry) : Nat := field e.w0 4 3
/-- Word 0 bit 7 (R192). -/
def Entry.streamed (e : Entry) : Bool := bit e.w0 7
/-- Word 0 bits 15:8, the persistence limit (R192). -/
def Entry.limit (e : Entry) : Nat := field e.w0 8 8
/-- Word 0 bits 23:16 (R192). -/
def Entry.target (e : Entry) : Nat := field e.w0 16 8
/-- Word 0 bits 31:24 (R192). -/
def Entry.window (e : Entry) : Nat := field e.w0 24 8
/-- Word 1 bits 15:0 of a READ, WRITE, WRITE_IMMEDIATE or CLAIM (R192). -/
def Entry.offset (e : Entry) : Nat := field e.w1 0 16
/-- Word 1 bits 31:16 of a READ, WRITE or WRITE_IMMEDIATE (R192). -/
def Entry.count (e : Entry) : Nat := field e.w1 16 16
/-- Word 2 of a READ or WRITE (R192). -/
def Entry.chainAddress (e : Entry) : Word := e.w2
/-- Word 2 of a WRITE_IMMEDIATE (R192). -/
def Entry.dataA (e : Entry) : Word := e.w2
/-- Word 3 of a WRITE_IMMEDIATE (R192). -/
def Entry.dataB (e : Entry) : Word := e.w3
/-- Word 2 of a CLAIM (R192). -/
def Entry.expected (e : Entry) : Word := e.w2
/-- Word 3 of a CLAIM, the new value (R192). -/
def Entry.replacement (e : Entry) : Word := e.w3
/-- Word 1 bits 7:0 of a NOTICE (R192). -/
def Entry.destination (e : Entry) : Nat := field e.w1 0 8
/-- Word 1 bits 15:8 of a NOTICE (R192). -/
def Entry.noticeCode (e : Entry) : Nat := field e.w1 8 8
/-- Word 1 bits 31:16 of a NOTICE (R192). -/
def Entry.argument (e : Entry) : Nat := field e.w1 16 16
/-- Word 1 bits 7:0 of a WAIT (R192). -/
def Entry.booking (e : Entry) : Nat := field e.w1 0 8
/-- Word 1 bits 31:16 of a WAIT, in ms (R192). -/
def Entry.timeout (e : Entry) : Nat := field e.w1 16 16
/-- Word 1 bits 15:0 of a MARK (R192). -/
def Entry.markCode (e : Entry) : Nat := field e.w1 0 16

/-- The kind, when its value names one. -/
def Entry.kind (e : Entry) : Option Kind := Kind.ofCode e.kindCode
/-- The disposition, when its value names one. -/
def Entry.disposition (e : Entry) : Option Disposition := Disposition.ofCode e.dispositionCode
/-- Whether the disposition is SWEEP. -/
def Entry.isSweep (e : Entry) : Bool := e.disposition = some .sweep
/-- READ or WRITE: the kinds with a buffer chain (R5). -/
def Entry.usesChain (e : Entry) : Bool := e.kind = some .read || e.kind = some .write
/-- READ, WRITE, WRITE_IMMEDIATE or CLAIM: the kinds that make requests (R5). -/
def Entry.makesRequests (e : Entry) : Bool :=
  e.usesChain || e.kind = some .writeImmediate || e.kind = some .claim

/-- The number of segments of a request-making entry not under SWEEP (R10, R13, R50). -/
def Entry.segments (e : Entry) : Nat := if e.usesChain then (e.count + 15) / 16 else 1

/-- The number of words segment k carries (R10, R50, R55): 16, or what remains in the last segment; the count of a
sweep or a WRITE_IMMEDIATE; 1 for a CLAIM. -/
def Entry.segmentWords (e : Entry) (k : Nat) : Nat :=
  if e.kind = some .claim then 1
  else if e.usesChain && !e.isSweep then min 16 (e.count - 16 * k)
  else e.count

/-- The peer-side offset of segment k (R50). -/
def Entry.segmentOffset (e : Entry) (k : Nat) : Nat :=
  if e.usesChain && !e.isSweep then e.offset + 16 * k else e.offset

/-- How many segments may be outstanding at once: 4 for a streamed READ or WRITE not under SWEEP, else 1 (R50). -/
def Entry.limitOutstanding (e : Entry) : Nat := if e.usesChain && e.streamed && !e.isSweep then 4 else 1

/-- The operation of the entry's requests (R48): a WRITE_IMMEDIATE is carried as a WRITE. -/
def Entry.operation (e : Entry) : Operation :=
  match e.kind with
  | some .read => .read
  | some .claim => .claim
  | _ => .write

/-- The payload that the entry itself holds: data A and, when count is 2, data B (R15); expected and new (R17). -/
def Entry.ownPayload (e : Entry) : List Word :=
  if e.kind = some .claim then [e.expected, e.replacement]
  else if e.count = 2 then [e.dataA, e.dataB] else [e.dataA]

/-! ## Argument registers (R195) -/

/-- The four copied argument registers (R176). -/
abbrev Arguments := Vector Word 4

/-- The channel of START, STOP and RESUME: argument 0 bits 7:0; none above 3. -/
def Arguments.channel (a : Arguments) : Option (Fin 4) :=
  if h : field a[0] 0 8 < 4 then some ⟨field a[0] 0 8, h⟩ else none

/-- The entry of START: argument 0 bits 31:16. -/
def Arguments.startEntry (a : Arguments) : Nat := field a[0] 16 16

/-- The window of WINDOW_SET: argument 0 bits 4:0; none above 15. -/
def Arguments.setWindow (a : Arguments) : Option (Fin 16) :=
  if h : field a[0] 0 5 < 16 then some ⟨field a[0] 0 5, h⟩ else none

/-- The window of HOLD, RELEASE, FLIP and CLOSE: argument 0 bits 7:0; none above 15. -/
def Arguments.window (a : Arguments) : Option (Fin 16) :=
  if h : field a[0] 0 8 < 16 then some ⟨field a[0] 0 8, h⟩ else none

/-- The access of WINDOW_SET: argument 0 bits 6:5; 0 names none. -/
def Arguments.access (a : Arguments) : Option Access :=
  match field a[0] 5 2 with
  | 1 => some .readOnly
  | 2 => some .writeOnly
  | 3 => some .readWrite
  | _ => none

/-- Paired of WINDOW_SET: argument 0 bit 7. -/
def Arguments.paired (a : Arguments) : Bool := bit a[0] 7

/-- The size of WINDOW_SET: argument 0 bits 31:16, 0 standing for 65536 (R119). -/
def Arguments.size (a : Arguments) : Nat := if field a[0] 16 16 = 0 then 65536 else field a[0] 16 16

/-- The permit set of WINDOW_SET: stations 1-32 in argument 3, stations 33-40 in bits 15:8 of argument 0. -/
def Arguments.permit (a : Arguments) : BitVec 40 := (a[0].extractLsb' 8 8 : BitVec 8) ++ a[3]

/-- The booking of BOOK and UNBOOK: argument 0 bits 7:0; none above 15. -/
def Arguments.booking (a : Arguments) : Option (Fin 16) := a.window

/-- The source filter of BOOK: argument 0 bits 15:8, 0 standing for ANY. -/
def Arguments.filter (a : Arguments) : Nat := field a[0] 8 8

/-- The code of BOOK: argument 0 bits 23:16. -/
def Arguments.bookCode (a : Arguments) : Nat := field a[0] 16 8

/-- POST, START and RELEASE of BOOK: argument 0 bits 24, 25 and 26. -/
def Arguments.post (a : Arguments) : Bool := bit a[0] 24
def Arguments.starts (a : Arguments) : Bool := bit a[0] 25
def Arguments.releases (a : Arguments) : Bool := bit a[0] 26

/-- The mode of BOOK: argument 0 bits 29:28, whether it is ONCE; 0 and 3 name none. -/
def Arguments.once (a : Arguments) : Option Bool :=
  match field a[0] 28 2 with
  | 1 => some true
  | 2 => some false
  | _ => none

/-- The start channel of BOOK: argument 1 bits 7:0. -/
def Arguments.bookChannel (a : Arguments) : Nat := field a[1] 0 8

/-- The start entry of BOOK: argument 1 bits 31:16. -/
def Arguments.bookEntry (a : Arguments) : Nat := field a[1] 16 16

/-- The form of UNBOOK: argument 0 bits 15:8, whether it is REMOVE; only 1 and 2 name one. -/
def Arguments.remove (a : Arguments) : Option Bool :=
  match field a[0] 8 8 with
  | 1 => some false
  | 2 => some true
  | _ => none

/-- The destination, code and argument of NOTICE: argument 0 bits 7:0, 15:8 and 31:16. -/
def Arguments.destination (a : Arguments) : Nat := field a[0] 0 8
def Arguments.noticeCode (a : Arguments) : Nat := field a[0] 8 8
def Arguments.noticeArgument (a : Arguments) : Nat := field a[0] 16 16

/-- The rate of CONFIGURE: argument 1 bits 2:0; 4-7 name none. -/
def Arguments.rate (a : Arguments) : Option Rate :=
  match field a[1] 0 3 with
  | 0 => some .mbit1p5
  | 1 => some .mbit3
  | 2 => some .mbit6
  | 3 => some .mbit12
  | _ => none

/-- The ring size code of CONFIGURE: argument 1 bits 11:8; 9-15 name none. -/
def Arguments.ringCode (a : Arguments) : Option (Fin 9) :=
  if h : field a[1] 8 4 < 9 then some ⟨field a[1] 8 4, h⟩ else none

/-- The configuration record that CONFIGURE writes (R144), when its arguments are in range. -/
def Arguments.configuration (a : Arguments) : Option Configuration :=
  match a.rate, a.ringCode with
  | some rate, some code =>
    let interval : Byte := a[0].extractLsb' 8 8
    let deadline : Byte := a[0].extractLsb' 16 8
    let retry : Byte := a[0].extractLsb' 24 8
    if interval = 0 || deadline = 0 || retry = 0 || field a[2] 0 4 != 0 then none
    else some ⟨a[0].extractLsb' 0 8, interval, deadline, retry, rate, a[2], code, true⟩
  | _, _ => none

end Sys2Proof.Machine
end

