-- ==== Sys2Proof/Machine/Ops.lean ====
section
/-! DEFINITION. The named operations over the blocks' records: the list store, the tables, the counts that the spec
keeps beside its records, the timers, the droppable slots, and the release of a tag. -/

namespace Sys2Proof.Machine

/-! ## The list store (R1, R2) -/

/-- The word that a word address never written reads as: a power-on reset sets every word to 0 (R1). -/
def unwrittenWord : Word := 0

/-- The word at a word address. -/
def readStore : List (Nat × Word) → Nat → Word
  | [], _ => unwrittenWord
  | (k, w) :: rest, a => if k = a then w else readStore rest a

/-- The store after a word is written at a word address, in its one form: addresses rising, no word zero. -/
def writeStore : List (Nat × Word) → Nat → Word → List (Nat × Word)
  | [], a, w => if w = unwrittenWord then [] else [(a, w)]
  | (k, v) :: rest, a, w =>
    if a < k then (if w = unwrittenWord then (k, v) :: rest else (a, w) :: (k, v) :: rest)
    else if a = k then (if w = unwrittenWord then rest else (a, w) :: rest)
    else (k, v) :: writeStore rest a w

/-- The one form of the store: addresses strictly rising and below 4096, no listed word zero. -/
def storeWf : List (Nat × Word) → Bool
  | [] => true
  | (k, w) :: rest => (k < 4096) && (w != unwrittenWord) && rest.all (fun c => k < c.1) && storeWf rest

/-- Entry i of the list store: word w of it is at word address 4i + w (R2). -/
def State.entry (s : State) (i : Nat) : Entry :=
  ⟨readStore s.listStore (4 * i), readStore s.listStore (4 * i + 1), readStore s.listStore (4 * i + 2),
    readStore s.listStore (4 * i + 3)⟩

/-! ## The tables -/

/-- The context of a channel. -/
def State.channel (s : State) (c : Fin 4) : Channel := s.engine.channels[c]

/-- The state with a channel's context replaced. -/
def State.setChannel (s : State) (c : Fin 4) (ch : Channel) : State :=
  { s with engine := { s.engine with channels := s.engine.channels.set c ch } }

/-- The record of a tag. -/
def State.tag (s : State) (t : Fin 16) : Tag := s.engine.tags[t]

/-- The state with a tag's record replaced. -/
def State.setTag (s : State) (t : Fin 16) (tag : Tag) : State :=
  { s with engine := { s.engine with tags := s.engine.tags.set t tag } }

/-- The record of a window. -/
def State.window (s : State) (w : Fin 16) : Window := s.responder.windows[w]

/-- The state with a window's record replaced. -/
def State.setWindow (s : State) (w : Fin 16) (window : Window) : State :=
  { s with responder := { s.responder with windows := s.responder.windows.set w window } }

/-- The record of a booking. -/
def State.booking (s : State) (b : Fin 16) : Booking := s.notices.bookings[b]

/-- The state with a booking's record replaced. -/
def State.setBooking (s : State) (b : Fin 16) (booking : Booking) : State :=
  { s with notices := { s.notices with bookings := s.notices.bookings.set b booking } }

/-- The roster entry at an index. -/
def State.peer (s : State) (i : Fin 40) : Peer := s.station.roster[i]

/-- The state with a roster entry replaced. -/
def State.setPeer (s : State) (i : Fin 40) (peer : Peer) : State :=
  { s with station := { s.station with roster := s.station.roster.set i peer } }

/-- The memo of a station's index. -/
def State.memo (s : State) (i : Fin 40) : Option Memo := s.responder.memos[i]

/-- The state with a memo replaced. -/
def State.setMemo (s : State) (i : Fin 40) (memo : Option Memo) : State :=
  { s with responder := { s.responder with memos := s.responder.memos.set i memo } }

/-! ## What the station is -/

/-- The station's own address: the strap address (R142). -/
def State.ownAddress (s : State) : Nat := s.station.strap.toNat

/-- JOINED or LEAVING: the states in which the station offers frames and takes requests and notices (R145). -/
def State.onTrunk (s : State) : Bool := s.station.state = .joined || s.station.state = .leaving

/-- Whether the roster holds a station as PRESENT (R152). -/
def State.isPresent (s : State) (address : Nat) : Bool :=
  match stationIndex address with
  | some i => (s.peer i).present
  | none => false

/-- Whether a window is in OPEN or HELD (R105). -/
def Window.advertised (w : Window) : Bool := w.state = .opened || w.state = .held

/-- The advertised window mask: bit w for each window in OPEN or HELD (R105, R151). -/
def State.advertisedMask (s : State) : BitVec 16 :=
  (List.finRange 16).foldl (fun m w => if (s.window w).advertised then m ||| (1#16 <<< w.val) else m) 0

/-! ## Counts kept beside the records they count -/

/-- QUEUED, SENT or BACKOFF: the states in which a tag is owned (R49). -/
def Tag.owned (t : Tag) : Bool := t.state = .queued || t.state = .sent || t.state = .backoff

/-- A channel's outstanding tags: the tags it owns in QUEUED, SENT or BACKOFF (R26). -/
def State.outstanding (s : State) (c : Fin 4) : Nat :=
  s.engine.tags.toList.countP fun t => t.owned && t.owner = some c

/-- The segments of a channel that are outstanding (R50). -/
def State.outstandingSegments (s : State) (c : Fin 4) : List Nat :=
  (s.engine.tags.toList.filter fun t => t.owned && t.owner = some c).map Tag.segment

/-- A window's in-work count of one half: the work items queued or executing against it (R104). -/
def State.inWork (s : State) (w : Fin 16) (half : WindowHalf) : Nat :=
  s.responder.queue.countP fun item => item.window = w && item.half = half

/-- The work items that hold a reserved slot: all of the queue but an item that an exclusion has discarded while it
executes (R112, R126). -/
def Responder.slottedItems (r : Responder) : Nat :=
  match r.execution with
  | some e => if e.discarded then r.queue.length - 1 else r.queue.length
  | none => r.queue.length

/-- The reserved reply slots taken: by the work items, and by their replies that wait to be sent (R112, R171). -/
def State.reservedTaken (s : State) : Nat :=
  s.responder.slottedItems + s.trunk.replies.countP fun q => q.reserved

/-- The immediate reply slots taken (R110, R171). -/
def State.immediateTaken (s : State) : Nat := s.trunk.replies.countP fun q => !q.reserved

/-- The ring size in records (R143, R195). -/
def State.ringSize (s : State) : Nat := 16 * 2 ^ s.station.config.ringCode.val

/-- The unconsumed count: producer minus consumer, modulo 65536 (R179). -/
def State.unconsumed (s : State) : Nat := (s.writer.producer - s.writer.consumer).toNat

/-! ## Timers -/

/-- The reply deadline D, in steps of 100 µs (R143). -/
def State.deadline (s : State) : Nat := s.station.config.replyDeadline.toNat

/-- The retry interval, in steps of 100 µs (R143). -/
def State.retryInterval (s : State) : Nat := s.station.config.retryInterval.toNat

/-- The presence interval P, in steps of 10 ms (R143). -/
def State.presenceInterval (s : State) : Nat := s.station.config.presenceInterval.toNat

/-- A silence timer started with its limit: three times the peer's interval, in steps of 10 ms (R154). -/
def silenceTimer (interval : Byte) : Timer := .running (3 * interval.toNat)

/-- Whether a timer runs. -/
def Timer.isRunning : Timer → Bool
  | .stopped => false
  | .running _ => true

/-! ## Events -/

/-- A droppable event is offered to the four slots; it takes the youngest place, or is dropped and counted in the drop
count and the dropped events counter (R182). -/
def offerDroppable (e : Event) (s : State) : State :=
  if s.writer.slots.length < 4 then { s with writer := { s.writer with slots := s.writer.slots ++ [e] } }
  else
    { s with
      writer := { s.writer with dropCount := satInc s.writer.dropCount }
      counters := { s.counters with droppedEvents := satInc s.counters.droppedEvents } }

/-- A STATION record joins the tail of the station event list (R146). -/
def raiseStation (e : StationEvent) (s : State) : State :=
  { s with station := { s.station with events := s.station.events ++ [e] } }

/-- An event is raised into a channel's held-event slot (R35). -/
def raiseHeld (c : Fin 4) (e : Event) (s : State) : State :=
  s.setChannel c { s.channel c with heldSlot := some e }

/-! ## Frames withdrawn and tags released -/

/-- A try on the line whose frame has left its place ends without being acted on (R170). -/
def withdrawTry (f : TryFrame → Bool) (s : State) : State :=
  match s.trunk.line with
  | some try_ =>
    if f try_.frame && try_.fate = .live then
      { s with trunk := { s.trunk with line := some { try_ with fate := .withdrawn } } }
    else s
  | none => s

/-- Whether a try is one of a tag's request frame. -/
def TryFrame.isRequestOf (t : Fin 16) : TryFrame → Bool
  | .request t' => t' = t
  | _ => false

/-- A tag whose transaction has ended is released: COOLING for 2 D if an attempt of it went unanswered, else FREE; it
leaves its channel (R68). -/
def releaseTag (t : Fin 16) (s : State) : State :=
  let tag := s.tag t
  s.setTag t { tag with
    state := if tag.unanswered then .cooling else .free
    owner := none
    completing := false
    timer := if tag.unanswered then .running (2 * s.deadline) else .stopped }

end Sys2Proof.Machine
end

