-- ==== Sys2Proof/Machine/Flags.lean ====
section
/-! DEFINITION. The flags and conditions the spec computes from the state, and what a host read of each register
returns (R175, R181, R185, R194, R195). -/

namespace Sys2Proof.Machine

/-- The interrupt line (R181): RECORDS enabled and a record unconsumed, or FAULT enabled and the event fault or the
ring error set. Interrupt pending in status shows the same condition. -/
def State.interruptLine (s : State) : Bool :=
  (s.port.enableRecords && decide (0 < s.unconsumed)) ||
    (s.port.enableFault && (s.writer.eventFault || s.writer.ringError))

/-- The ring is full: the unconsumed count equals the ring size (R185). -/
def State.ringFull (s : State) : Bool := s.unconsumed = s.ringSize

/-- The writer is free to write (R185). -/
def State.writerFree (s : State) : Bool :=
  s.station.config.ringConfigured && !s.writer.eventFault && s.writer.inFlight.isNone &&
    decide (s.unconsumed < s.ringSize)

/-- The drain condition of a leave: every channel IDLE or HALTED, and the work queue, the reply queue and the notice
queue empty (R157). -/
def State.drained (s : State) : Bool :=
  s.engine.channels.toList.all (fun ch => ch.state = .idle || ch.state = .halted) &&
    s.responder.queue.isEmpty && s.trunk.replies.isEmpty && s.notices.queue.isEmpty

/-- A channel has no host-memory access in flight (R36). -/
def Channel.quiet (ch : Channel) : Bool := ch.preparation.isNone && ch.writes.isEmpty

/-- The station state codes (R195). -/
def StationState.code : StationState → Nat
  | .offline => 0
  | .listening => 1
  | .joined => 2
  | .leaving => 3
  | .excluded => 4

/-- The result codes (R195). -/
def CommandResult.code : CommandResult → Nat
  | .none => 0
  | .done => 1
  | .accepted => 2
  | .busy => 3
  | .badState => 4
  | .badArg => 5

/-- The status register (R175, R195). -/
def State.statusWord (s : State) : Word :=
  place s.station.state.code 0 ||| place s.ownAddress 8 ||| flagAt s.writer.eventFault 16 |||
    flagAt s.writer.ringError 17 ||| flagAt s.interruptLine 18

/-- The command result register (R175, R195). -/
def State.resultWord (s : State) : Word :=
  place s.port.result.code 0 ||| flagAt s.port.executing.isSome 31

/-- What a host read of word r of the register window returns (R175, R194, R195). A read of the list data also
advances the list address; that access is the row LIST_DATA_READ. -/
def State.readRegister (s : State) (r : Fin 16) : Word :=
  match r.val with
  | 0 => s.statusWord
  | 1 => 0
  | 2 => s.resultWord
  | 3 => s.port.arguments[0]
  | 4 => s.port.arguments[1]
  | 5 => s.port.arguments[2]
  | 6 => s.port.arguments[3]
  | 7 => s.port.listAddress.setWidth 32
  | 8 => readStore s.listStore s.port.listAddress.toNat
  | 9 => s.writer.producer.setWidth 32
  | 10 => s.writer.consumer.setWidth 32
  | 11 => flagAt s.port.enableRecords 0 ||| flagAt s.port.enableFault 1
  | 12 => place s.counters.checkErrors 0 ||| place s.counters.staleReplies 16
  | 13 => place s.counters.droppedRequests 0 ||| place s.counters.abandonedFrames 16
  | 14 => place s.counters.droppedEvents 0
  | _ => 0

end Sys2Proof.Machine
end

