-- ==== Sys2Proof/Machine/Chain.lean ====
section
/-! DEFINITION. Buffer chains: the walk, and the cutting of accesses into bursts (R90 to R95, R98). -/

namespace Sys2Proof.Machine

/-! ## Accesses and bursts (R98) -/

/-- How many words from an address on lie in its aligned block of 64 bytes. -/
def blockLeft (addr : Word) : Nat := 16 - field addr 2 4

/-- The address n words on; it wraps above 0xFFFFFFFC (R90, R106). -/
def wordsOn (addr : Word) (n : Nat) : Word := addr + BitVec.ofNat 32 (4 * n)

/-- A read of n words that has not begun. -/
def ReadAccess.start (addr : Word) (n : Nat) : ReadAccess := ⟨addr, addr, n, [], false⟩

/-- The number of words of a read's next burst. -/
def ReadAccess.burstWords (a : ReadAccess) : Nat := min a.left (blockLeft a.next)

/-- A read after its next burst has brought the given words. -/
def ReadAccess.take (a : ReadAccess) (words : List Word) : ReadAccess :=
  { a with next := wordsOn a.next a.burstWords, left := a.left - a.burstWords, got := a.got ++ words }

/-- A write of words that has not begun. -/
def WriteAccess.start (addr : Word) (words : List Word) : WriteAccess := ⟨addr, addr, words⟩

/-- The number of words of a write's next burst. -/
def WriteAccess.burstWords (a : WriteAccess) : Nat := min a.words.length (blockLeft a.next)

/-- A write after its next burst is complete. -/
def WriteAccess.advance (a : WriteAccess) : WriteAccess :=
  { a with next := wordsOn a.next a.burstWords, words := a.words.drop a.burstWords }

/-- The words of a placement's pieces, each piece a write access of its own (R94). -/
def writesOf : List Piece → List Word → List WriteAccess
  | [], _ => []
  | p :: rest, words => WriteAccess.start p.addr (words.take p.count) :: writesOf rest (words.drop p.count)

/-! ## The walk (R91, R92) -/

/-- What the walk answers: every position is placed, the chain ended at a position, or a descriptor must be fetched. -/
inductive WalkAnswer where
  | placed
  | short (position : Nat)
  | fetch (descriptor : Word)
deriving DecidableEq, Repr

/-- The position after the walk's region: the sum of the lengths of the regions so far. -/
def Walk.regionEnd (w : Walk) : Nat := w.regionStart + w.regionLength

/-- What follows when a request still wants words that lie beyond the region in use: the end of the chain, or the next
descriptor, whose address wraps modulo 2^32 (R92; DESIGN CHOICE, log entry 41). -/
def Walk.beyond (w : Walk) : WalkAnswer :=
  if w.last then .short w.regionEnd else .fetch (w.descriptorAddress + 8)

/-- The walk goes as far as the region in use allows: it gives out the positions wanted that lie in it, and answers what
the request needs next (R92). An absent walk starts with descriptor 0 at the entry's chain address. -/
def walkOn (chainAddress : Word) (walk : Option Walk) (r : WalkRequest) : Option Walk × WalkRequest × WalkAnswer :=
  match walk with
  | none => (none, r, .fetch chainAddress)
  | some w =>
    if r.position < w.regionEnd then
      let offset := r.position - w.regionStart
      let n := min r.left (w.regionEnd - r.position)
      let r' : WalkRequest := ⟨r.position + n, r.left - n, r.pieces ++ [⟨wordsOn w.regionBase offset, n⟩]⟩
      let w' : Walk := { w with offset := offset + n }
      (some w', r', if r'.left = 0 then .placed else w'.beyond)
    else (some w, r, w.beyond)

/-- The walk takes a fetched descriptor: its word address with the two lowest bits zero, its length with 0 standing for
65536, its LAST flag, and the region's start after the region before it (R90, R91, R193). -/
def Walk.load (before : Option Walk) (descriptor : Word) (w0 w1 : Word) : Walk where
  descriptorAddress := descriptor
  regionBase := w0 &&& 0xFFFFFFFC#32
  regionLength := if field w1 0 16 = 0 then 65536 else field w1 0 16
  last := bit w1 31
  regionStart := match before with
    | some w => w.regionEnd
    | none => 0
  offset := 0

/-- A descriptor fetch: one host read of two words (R90). -/
def fetchAccess (descriptor : Word) : ReadAccess := ReadAccess.start descriptor 2

/-! ## Sweep records (R87, R193) -/

/-- The outcome codes (R193). -/
def Result.code : Result → Nat
  | .accepted => 0x01
  | .won _ => 0x01
  | .notReady .held => 0x02
  | .notReady .busy => 0x03
  | .notReady .leaving => 0x04
  | .refused => 0x05
  | .noWindow => 0x06
  | .range => 0x07
  | .remoteFault => 0x08
  | .timeout => 0x09
  | .absent => 0x0A
  | .peerLost => 0x0B
  | .link => 0x0C
  | .lost _ => 0x0D
  | .bookingIdle => 0x0E
  | .waitTimeout => 0x0F

/-- The header word of a sweep record: station, outcome code and data word count. -/
def SweepRecord.header (r : SweepRecord) : Word :=
  place r.station 0 ||| place r.result.code 8 ||| place r.words.length 16

/-- The length of a sweep record in chain words. -/
def SweepRecord.length (r : SweepRecord) : Nat := 1 + r.words.length

/-- The accesses of a placed record: the header first, the data words after it (R95). -/
def SweepRecord.accesses (r : SweepRecord) (header : Word) (data : List Piece) : List WriteAccess :=
  WriteAccess.start header [r.header] :: writesOf data r.words

end Sys2Proof.Machine
end

