-- ==== Sys2Proof/Machine/Checks.lean ====
section
/-! DEFINITION. The entry checks (R6, R7, R8), in the order of the table of R8. -/

namespace Sys2Proof.Machine

/-- What check 14 compares a re-captured entry with: the entry as it was halted, and the resume segment (R4). -/
structure ResumePoint where
  halted : Entry
  segment : Nat
deriving DecidableEq, Repr

/-- Check 14 fails (R4): another kind, SWEEP on one side only, or, for a READ or WRITE not under SWEEP, a resume segment
that is not below the number of segments. -/
def resumeMismatch (e : Entry) (r : ResumePoint) : Bool :=
  e.kindCode != r.halted.kindCode || e.isSweep != r.halted.isSweep ||
    (e.usesChain && !e.isSweep && decide (e.segments ≤ r.segment))

/-- A NOTICE, WAIT, MARK or END entry: the kinds that make no request (R6). -/
def Entry.makesNoRequest (e : Entry) : Bool := e.kind.isSome && !e.makesRequests

/-- The number of words the entry touches, for check 9 (R8). -/
def Entry.touched (e : Entry) : Nat := if e.kind = some .claim then 1 else e.count

/-- The checks 1 to 14 of R8, each with whether it fails for an entry of a station with the given own address. -/
def entryChecks (own : Nat) (resume : Option ResumePoint) (e : Entry) : List (Nat × Bool) :=
  [ (1, e.kind.isNone),
    (2, e.disposition.isNone),
    (3, e.makesNoRequest &&
      (e.disposition = some .persist || e.disposition = some .sweep || e.streamed)),
    (4, (e.usesChain && (e.count = 0 || decide (4096 < e.count))) ||
      (e.kind = some .writeImmediate && (e.count = 0 || decide (2 < e.count)))),
    (5, e.isSweep && (e.kind = some .write || e.kind = some .claim ||
      (e.kind = some .read && decide (16 < e.count)))),
    (6, e.makesRequests && e.disposition = some .persist && e.limit = 0),
    (7, e.makesRequests && (e.target = 0 || decide (40 < e.target) || (!e.isSweep && e.target = own))),
    (8, e.makesRequests && decide (15 < e.window)),
    (9, e.makesRequests && decide (65536 < e.offset + e.touched)),
    (10, e.usesChain && field e.chainAddress 0 2 != 0),
    (11, e.kind = some .notice && decide (40 < e.destination)),
    (12, e.kind = some .notice && e.noticeCode = 0),
    (13, e.kind = some .wait && decide (15 < e.booking)),
    (14, match resume with
      | some r => resumeMismatch e r
      | none => false) ]

/-- The number of the first check that fails, if one does (R8). -/
def firstFailedCheck (own : Nat) (resume : Option ResumePoint) (e : Entry) : Option Nat :=
  ((entryChecks own resume e).find? (fun c => c.2)).map Prod.fst

end Sys2Proof.Machine
end

