-- ==== Sys2Proof/Machine/Channels.lean ====
section
/-! DEFINITION. The channels: beginning and finishing entries, stopping, failing, resuming (R3, R7, R9, R22, R30 to R32,
R35 to R45). -/

namespace Sys2Proof.Machine

/-! ## Leaving RUNNING -/

/-- The first burst of a preparation's current access has been granted (R94, R100). -/
def Preparation.begun (p : Preparation) : Bool :=
  match p.stage with
  | .fetching _ a => a.begun
  | .payload _ _ a _ => a.begun

/-- A preparation whose channel leaves RUNNING: an access in progress runs to its end unused, one not begun is withdrawn
(R51, R100). -/
def dropPreparation : Option Preparation → Option Preparation
  | some p => if p.begun then some { p with dropped := true } else none
  | none => none

/-- A channel's context as it leaves RUNNING or WAITING: nothing prepared, nothing waited for, the wait timer stopped
(R26, R34, R51). A sweep segment that is still outstanding has its header placement in its tag (R95; log entry 14). -/
def Channel.leaveRunning (ch : Channel) : Channel :=
  { ch with
    prepared := none
    issueBuffer := zeroWords
    sweepHeader := none
    noticeWait := .absent
    waitBooking := none
    waitTimer := .stopped
    preparation := dropPreparation ch.preparation }

/-- The frames of a channel in the notice queue become DETACHED when it leaves RUNNING (R130). -/
def detachNotices (c : Fin 4) (s : State) : State :=
  { s with notices := { s.notices with
      queue := s.notices.queue.map fun n => if n.origin = .channel c then { n with origin := .detached } else n } }

/-- The resume segment lowered to a failed segment, if that is lower (R41). -/
def Channel.lowerResume (ch : Channel) (segment : Nat) : Channel :=
  { ch with resumeSegment := some (min segment (ch.resumeSegment.getD segment)) }

/-- A segment of a FAILING channel has failed (R41). -/
def segmentFailed (c : Fin 4) (segment : Nat) (s : State) : State :=
  if (s.channel c).state = .failing then s.setChannel c ((s.channel c).lowerResume segment) else s

/-- A tag of a STOPPING or FAILING channel in BACKOFF is ended at once with the outcome it holds, but not a completing
one, whose write R67 goes on with or has cancelled (R71). -/
def endBackoffTag (c : Fin 4) (s : State) (t : Fin 16) : State :=
  if (s.tag t).state = .backoff ∧ (s.tag t).completing = false ∧ (s.tag t).owner = some c then
    segmentFailed c (s.tag t).segment (releaseTag t s)
  else s

/-- Every BACKOFF tag of a channel that enters STOPPING or FAILING is ended, unless it is completing (R71). -/
def endBackoffTags (c : Fin 4) (s : State) : State := (List.finRange 16).foldl (endBackoffTag c) s

/-- A waiting completion write is cancelled: its tag is released at once (R67). -/
def cancelWrite (s : State) (w : CompletionWrite) : State :=
  match w.tag with
  | some t => releaseTag t s
  | none => s

/-- The completion writes of a channel that goes STOPPING: those not begun are cancelled, one begun goes on (R67, R94,
R95, R100). -/
def cancelWaitingWrites (c : Fin 4) (s : State) : State :=
  let writes := (s.channel c).writes
  let s := (writes.filter fun w => !w.begun).foldl cancelWrite s
  s.setChannel c { s.channel c with writes := writes.filter fun w => w.begun }

/-- A RUNNING or WAITING channel goes STOPPING (R38, R39). -/
def stopChannel (c : Fin 4) (s : State) : State :=
  let s := detachNotices c s
  let s := s.setChannel c { (s.channel c).leaveRunning with state := .stopping }
  endBackoffTags c (cancelWaitingWrites c s)

/-- A halt-causing cause reaches a channel (R40): a RUNNING or WAITING channel goes FAILING and records the error, the
detail and the resume segment; in a FAILING channel the segment failed and the first error stands (R41); a channel in
another state is not reached. -/
def failChannel (c : Fin 4) (error : HaltError) (detail : HaltDetail) (resume : Nat) (s : State) : State :=
  match (s.channel c).state with
  | .running | .waiting =>
    let s := detachNotices c s
    let s := s.setChannel c { (s.channel c).leaveRunning with
      state := .failing
      haltError := some error
      haltDetail := detail
      resumeSegment := some resume }
    endBackoffTags c s
  | .failing => segmentFailed c resume s
  | _ => s

/-! ## End events -/

/-- The CH_HALTED event of a channel: channel, start source, current entry index, error, detail, resume segment (R36). -/
def Channel.haltedEvent (ch : Channel) (c : Fin 4) : Event :=
  .chHalted c ch.startSource ch.entryIndex ch.haltError ch.haltDetail (ch.resumeSegment.getD 0)

/-- The CH_TOLERATED event of a channel (R32, R80). -/
def Channel.toleratedEvent (ch : Channel) (c : Fin 4) : Event :=
  .chTolerated c ch.entryIndex ch.tolerated ch.lastTolerated

/-- A channel enters REPORTING with its end event in the slot (R36). -/
def enterReporting (c : Fin 4) (e : Event) (s : State) : State :=
  s.setChannel c { s.channel c with state := .reporting, heldSlot := some e }

/-- An entry fails a check: the channel goes directly to REPORTING with CH_HALTED, error BAD_ENTRY, the number of the
check as detail and resume segment 0 (R7). -/
def badEntry (c : Fin 4) (check : Nat) (s : State) : State :=
  let ch := { s.channel c with
    haltError := some .badEntry
    haltDetail := ⟨none, some check, none⟩
    resumeSegment := some 0 }
  enterReporting c (ch.haltedEvent c) (s.setChannel c ch)

/-- A STOPPING or FAILING channel that owns no tag, has no access in flight and has an empty slot enters REPORTING with
its end event: CH_STOPPED or CH_HALTED (R36). -/
def reportEnd (c : Fin 4) (s : State) : State :=
  let ch := s.channel c
  if s.outstanding c = 0 ∧ ch.quiet ∧ ch.heldSlot = none then
    match ch.state with
    | .stopping => enterReporting c (.chStopped c ch.startSource) s
    | .failing => enterReporting c (ch.haltedEvent c) s
    | _ => s
  else s

/-! ## Beginning an entry -/

/-- The context of a channel that begins an entry: the entry captured, the per-entry fields set (R3, R31). -/
def Channel.beginAt (ch : Channel) (index : Nat) (e : Entry) : Channel :=
  { ch with
    state := .running
    entryIndex := index
    entryUnbegun := false
    captured := e
    nextSegment := 0
    completed := 0
    tolerated := 0
    lastTolerated := none
    sweepCursor := e.target
    sweepPosition := 0
    walk := none
    prepared := none
    issueBuffer := zeroWords
    sweepHeader := none
    noticeWait := .absent }

/-- An outcome of the current entry is counted as tolerated (R79). -/
def Channel.tolerate (ch : Channel) (r : Result) : Channel :=
  { ch with tolerated := ch.tolerated + 1, lastTolerated := some r }

/-- A WAIT or NOTICE entry ends with an outcome that is not its success: under TOLERANT it is counted, CH_TOLERATED is
raised and the channel pauses, RUNNING; else the channel halts (R20, R22, R32, R40). -/
def endUnmet (c : Fin 4) (r : Result) (error : HaltError) (detail : HaltDetail) (s : State) : State :=
  if (s.channel c).captured.disposition = some .tolerant then
    let ch := { (s.channel c).leaveRunning.tolerate r with state := .running }
    raiseHeld c (ch.toleratedEvent c) (s.setChannel c ch)
  else failChannel c error detail 0 s

/-- The test of a WAIT that begins (R22): a set latch is cleared and the entry is finished at once (true); a booking not
ARMED ends it with BOOKING_IDLE; else the channel goes WAITING, with its timer if the timeout is not 0 (R34). -/
def beginWait (c : Fin 4) (b : Fin 16) (s : State) : State × Bool :=
  let booking := s.booking b
  if booking.latch then (s.setBooking b { booking with latch := false }, true)
  else if booking.state ≠ .armed then
    (endUnmet c .bookingIdle .bookingIdle ⟨none, none, some (BitVec.ofNat 32 b.val)⟩ s, false)
  else
    let ch := s.channel c
    let timeout := ch.captured.timeout
    (s.setChannel c { ch with
      state := .waiting
      waitBooking := some b
      waitTimer := if timeout = 0 then .stopped else .running timeout }, false)

/-- The course of an entry that has passed its checks, as its kind requires (R31); true when it is finished at once. The
segments of a request-making entry are prepared and issued by later steps; it is finished at once only when it is
resumed with every segment completed (log entry 6). -/
def enterEntry (c : Fin 4) (s : State) : State × Bool :=
  let ch := s.channel c
  let e := ch.captured
  match e.kind with
  | some .read | some .write | some .writeImmediate | some .claim =>
    (s, !e.isSweep && decide (e.segments ≤ ch.completed))
  | some .notice => (s.setChannel c { ch with noticeWait := .place }, false)
  | some .wait => if h : e.booking < 16 then beginWait c ⟨e.booking, h⟩ s else (s, false)
  | some .mark => (raiseHeld c (.chMark c ch.entryIndex e.markCode) s, false)
  | some .endList => (enterReporting c (.chDone c ch.startSource) s, false)
  | none => (s, false)

/-- The entries from one index on, `left` entries before the end of the store: each is captured, checked and begun, and
the next one follows at once when it is finished at once. Index 1024 fails check 15 (R3, R7, R9, R31, R32). -/
def runFrom : Nat → Fin 4 → State → State
  | 0, c, s => badEntry c 15 (s.setChannel c
      { (s.channel c).beginAt 1024 (s.channel c).captured with sweepCursor := (s.channel c).sweepCursor })
  | left + 1, c, s =>
    let index := 1024 - (left + 1)
    let e := s.entry index
    let s := s.setChannel c ((s.channel c).beginAt index e)
    match firstFailedCheck s.ownAddress none e with
    | some check => badEntry c check s
    | none =>
      match enterEntry c s with
      | (s, true) => runFrom left c s
      | (s, false) => s

/-- A channel begins the entry at an index (R31). -/
def beginEntry (index : Nat) (c : Fin 4) (s : State) : State := runFrom (1024 - index) c s

/-- The current entry is finished: the next one begins at once, or CH_TOLERATED is raised first (R32). -/
def finishEntry (c : Fin 4) (s : State) : State :=
  let ch := s.channel c
  if ch.tolerated = 0 then beginEntry (ch.entryIndex + 1) c s else raiseHeld c (ch.toleratedEvent c) s

/-- A RUNNING channel whose every segment is resolved has finished its entry; a sweep is finished by its look-ahead or
its choice of a peer (R31, R84). -/
def finishIfResolved (c : Fin 4) (s : State) : State :=
  let ch := s.channel c
  if ch.state = .running && !ch.captured.isSweep && decide (ch.captured.segments ≤ ch.completed) then finishEntry c s
  else s

/-! ## Starting and resuming -/

/-- The context of a channel that is started: the halt context discarded, the start source set, RUNNING (R28, R29). -/
def Channel.start (ch : Channel) (source : StartSource) : Channel :=
  { ch with
    state := .running
    startSource := source
    haltError := none
    haltDetail := HaltDetail.none
    resumeSegment := none }

/-- A channel is started at an entry (R28). -/
def startChannel (source : StartSource) (entry : Nat) (c : Fin 4) (s : State) : State :=
  beginEntry entry c (s.setChannel c ((s.channel c).start source))

/-- The context of a channel resumed at its resume segment with its entry captured anew (R30). -/
def Channel.resumeAt (ch : Channel) : Channel :=
  let r := ch.resumeSegment.getD 0
  { ch.start .host with
    nextSegment := r
    completed := r
    tolerated := 0
    lastTolerated := none
    walk := none
    prepared := none
    issueBuffer := zeroWords
    sweepHeader := none
    noticeWait := .absent }

/-- A HALTED channel is resumed (R4, R9, R30, R44). -/
def resumeChannel (c : Fin 4) (s : State) : State :=
  let ch := s.channel c
  if ch.entryUnbegun then startChannel .host ch.entryIndex c s
  else if 1024 ≤ ch.entryIndex then beginEntry ch.entryIndex c s
  else
    let e := s.entry ch.entryIndex
    let point : ResumePoint := ⟨ch.captured, ch.resumeSegment.getD 0⟩
    let s := s.setChannel c { ch with captured := e }
    match firstFailedCheck s.ownAddress (some point) e with
    | some check => badEntry c check s
    | none =>
      match enterEntry c (s.setChannel c (s.channel c).resumeAt) with
      | (s, true) => beginEntry (ch.entryIndex + 1) c s
      | (s, false) => s

/-! ## Leave and exclusion -/

/-- A channel paused at CH_TOLERATED has finished its entry: it stands at the next index, which it has not begun, with
resume segment 0 (R44). -/
def Channel.pausedAtTolerated (ch : Channel) : Bool :=
  match ch.heldSlot with
  | some (.chTolerated _ _ _ _) => ch.state = .running
  | _ => false

/-- The effect of LEAVE in JOINED on a channel (R44). -/
def leaveChannel (c : Fin 4) (s : State) : State :=
  let ch := s.channel c
  if ch.pausedAtTolerated then
    failChannel c .left HaltDetail.none 0
      (s.setChannel c { ch with entryIndex := ch.entryIndex + 1, entryUnbegun := true })
  else if ch.state = .running || ch.state = .waiting then failChannel c .left HaltDetail.none ch.nextSegment s
  else s

/-- The resume segment of a channel that exclusion reaches: the lowest segment neither completed nor tolerated, every
outstanding segment counting as failed (R45). -/
def State.excludedResume (s : State) (c : Fin 4) : Nat :=
  let ch := s.channel c
  let known := if ch.state = .failing then ch.resumeSegment.getD ch.nextSegment else ch.nextSegment
  (s.outstandingSegments c).foldl min known

/-- The sweep cursor of a channel that exclusion reaches: at the peer of its outstanding segment, which counts as failed,
or kept (R45, R89). -/
def State.excludedCursor (s : State) (c : Fin 4) : Nat :=
  match (List.finRange 16).find? fun t => (s.tag t).owned && (s.tag t).owner = some c && (s.tag t).sweep with
  | some t => (s.tag t).target
  | none => (s.channel c).sweepCursor

/-- A completion write at an exclusion: one begun runs to its end for its channel, its tag freed (R45, R73). -/
def CompletionWrite.orphan (w : CompletionWrite) : CompletionWrite := { w with tag := none }

/-- The effect of exclusion on a channel's context, given its resume segment and sweep cursor (R45, R89, R103). Its tags
are made FREE at the same event. -/
def Channel.exclude (ch : Channel) (resume cursor : Nat) : Channel :=
  let left := { ch.leaveRunning with writes := (ch.writes.filter fun w => w.begun).map CompletionWrite.orphan }
  match ch.state with
  | .running | .waiting | .failing =>
    let paused := ch.pausedAtTolerated
    { left with
      state := .failing
      entryIndex := if paused then ch.entryIndex + 1 else ch.entryIndex
      entryUnbegun := paused || ch.entryUnbegun
      haltError := some .excluded
      haltDetail := HaltDetail.none
      resumeSegment := some (if paused then 0 else resume)
      sweepCursor := cursor }
  | .stopping => left
  | _ => ch

end Sys2Proof.Machine
end

