-- ==== Sys2Proof/Machine/Frames.lean ====
section
/-! DEFINITION. Trunk frames: their check, the bytes of each kind as sent, and the fields of a received frame (R164,
R190, R191). -/

namespace Sys2Proof.Machine

/-! ## The check -/

/-- One bit taken into the check: polynomial x^16 + x^12 + x^5 + 1 (R164). -/
def crcBit (crc : Half) (b : Bool) : Half := if crc.msb != b then (crc <<< 1) ^^^ 0x1021#16 else crc <<< 1

/-- One byte taken into the check, most significant bit first (R190). -/
def crcByte (crc : Half) (b : Byte) : Half :=
  [7, 6, 5, 4, 3, 2, 1, 0].foldl (fun c i => crcBit c (b.getLsbD i)) crc

/-- The check of a header and payload: from 0xFFFF, with no final inversion (R164, R190). -/
def crc16 (bytes : List Byte) : Half := bytes.foldl crcByte 0xFFFF#16

/-- A header and its payload words as a frame: the payload after the header, then the check, low byte first (R190). -/
def frameBytes (header : List Byte) (payload : List Word) : List Byte :=
  let body := header ++ payload.flatMap wordBytes
  body ++ halfBytes (crc16 body)

/-- A number as a byte of a frame. -/
def toByte (n : Nat) : Byte := BitVec.ofNat 8 n

/-! ## Frames as sent (R190; reserved bytes and unnamed bits 0, R191) -/

/-- The operation codes (R190). -/
def Operation.code : Operation → Nat
  | .read => 0
  | .write => 1
  | .claim => 2

/-- Byte 3 of a REQUEST or REPLY: tag 3:0, generation 4, repeat or won flag 5. -/
def tagByte (tag : Fin 16) (generation flag : Bool) : Byte := toByte (tag.val + 16 * generation.toNat + 32 * flag.toNat)

/-- The payload of a tag's request: the words of a WRITE, expected and new of a CLAIM, none of a READ (R164). -/
def Tag.requestPayload (tag : Tag) : List Word := if tag.operation = .read then [] else tag.payload

/-- The request frame of a tag (R55, R65, R190). -/
def State.requestFrame (s : State) (t : Fin 16) : List Byte :=
  let tag := s.tag t
  frameBytes
    [1, toByte tag.target, toByte s.ownAddress, tagByte t tag.generation tag.repeated, toByte tag.operation.code,
      toByte tag.window, toByte tag.offset, toByte (tag.offset / 256), toByte tag.count, 0]
    tag.requestPayload

/-- The reason values (R190). -/
def Reason.code : Reason → Nat
  | .held => 1
  | .busy => 2
  | .leaving => 3

/-- The reply status values (R190). -/
def Status.code : Status → Nat
  | .accepted => 0
  | .notReady _ => 1
  | .refused => 2
  | .noWindow => 3
  | .range => 4
  | .fault => 5

/-- The reason carried: 0 with every status but NOT_READY (R190). -/
def Status.reasonCode : Status → Nat
  | .notReady reason => reason.code
  | _ => 0

/-- The frame of a reply (R110, R115, R190). -/
def State.replyFrame (s : State) (r : Reply) : List Byte :=
  frameBytes
    ([2, toByte r.destination, toByte s.ownAddress, tagByte r.tag r.generation r.won,
      toByte (r.status.code + 16 * r.status.reasonCode), r.window] ++ halfBytes r.offset ++ [r.count, 0])
    r.payload

/-- The frame of a queued notice, the source added (R128, R190). -/
def State.noticeFrame (s : State) (n : QueuedNotice) : List Byte :=
  frameBytes
    [3, toByte n.destination, toByte s.ownAddress, toByte n.code, toByte n.argument, toByte (n.argument / 256), 0, 0, 0, 0]
    []

/-- The frame of a presence (R149, R190). -/
def State.presenceFrame (s : State) (p : Presence) : List Byte :=
  frameBytes
    ([4, 0, toByte s.ownAddress, p.incarnation, toByte (p.fresh.toNat + 2 * p.leaving.toNat), p.interval] ++
      halfBytes p.mask ++ [0, 0])
    []

/-! ## Received frames -/

/-- Byte i of a received frame. -/
def byteOf (bytes : List Byte) (i : Nat) : Byte := bytes.getD i 0

/-- The check of a received frame is good: it reaches its check, and the check is that of what precedes it (R172). -/
def checkGood (bytes : List Byte) : Bool :=
  let n := bytes.length - 2
  decide (12 ≤ bytes.length) && crc16 (bytes.take n) = joinHalf (byteOf bytes n) (byteOf bytes (n + 1))

/-- The payload bytes of a received frame: after the header of 10 bytes, before the check of 2. -/
def payloadBytes (bytes : List Byte) : List Byte := (bytes.drop 10).take (bytes.length - 12)

/-- The source of a received frame. -/
def sourceOf (bytes : List Byte) : Nat := (byteOf bytes 2).toNat

/-- The destination of a received frame. -/
def destinationOf (bytes : List Byte) : Nat := (byteOf bytes 1).toNat

/-- The kinds of frame (R164). -/
inductive FrameKind where
  | request
  | reply
  | notice
  | presence
deriving DecidableEq, Repr

/-- The kind byte 1-4; others are none of the four (R190, R191). -/
def kindOf (bytes : List Byte) : Option FrameKind :=
  match (byteOf bytes 0).toNat with
  | 1 => some .request
  | 2 => some .reply
  | 3 => some .notice
  | 4 => some .presence
  | _ => none

/-- The operation of a received REQUEST; value 3 names none (R191). -/
def operationOf (bytes : List Byte) : Option Operation :=
  match ((byteOf bytes 4).extractLsb' 0 2).toNat with
  | 0 => some .read
  | 1 => some .write
  | 2 => some .claim
  | _ => none

/-- Whether the payload of a received frame has the length its kind, and a REQUEST's operation and count, give, and
the frame is no longer than the longest of its kind (R172, R191). The payload of a REPLY is judged by the engine
(R59). -/
def lengthGood (bytes : List Byte) : Bool :=
  match kindOf bytes with
  | some .request =>
    decide (bytes.length ≤ 76) &&
      match operationOf bytes with
      | some .read => bytes.length = 12
      | some .write => bytes.length = 12 + 4 * (byteOf bytes 8).toNat
      | some .claim => bytes.length = 20
      | none => false
  | some .reply => decide (bytes.length ≤ 76)
  | some .notice | some .presence => bytes.length = 12
  | none => false

/-- The receive checks (R172). -/
def receiveChecks (bytes : List Byte) : Bool :=
  checkGood bytes && (kindOf bytes).isSome && Instr.isStation (sourceOf bytes) && lengthGood bytes

/-- The tag number of a received REQUEST or REPLY. -/
def tagOf (bytes : List Byte) : Fin 16 :=
  ⟨((byteOf bytes 3).extractLsb' 0 4).toNat, ((byteOf bytes 3).extractLsb' 0 4).isLt⟩

/-- The generation of a received REQUEST or REPLY. -/
def generationOf (bytes : List Byte) : Bool := (byteOf bytes 3).getLsbD 4

/-- The repeat flag of a received REQUEST, or the won flag of a REPLY. -/
def flagOf (bytes : List Byte) : Bool := (byteOf bytes 3).getLsbD 5

/-- A REQUEST as the responder takes it (R107). -/
structure Request where
  source : Nat
  tag : Fin 16
  generation : Bool
  repeated : Bool
  operation : Operation
  window : Byte
  offset : BitVec 16
  count : Byte
  payload : List Word
deriving DecidableEq, Repr

/-- The request that a received frame holds. The operation is one of the three when the frame has passed the receive
checks. -/
def requestOf (bytes : List Byte) : Request where
  source := sourceOf bytes
  tag := tagOf bytes
  generation := generationOf bytes
  repeated := flagOf bytes
  operation := (operationOf bytes).getD .read
  window := byteOf bytes 5
  offset := joinHalf (byteOf bytes 6) (byteOf bytes 7)
  count := byteOf bytes 8
  payload := joinWords (payloadBytes bytes)

/-- A REPLY as the engine takes it (R58). Its status is absent when status and reason name none (R191). -/
structure ReceivedReply where
  source : Nat
  tag : Fin 16
  generation : Bool
  status : Option Status
  won : Bool
  window : Nat
  offset : Nat
  count : Nat
  payloadLength : Nat
  payload : List Word
deriving DecidableEq, Repr

/-- The status that the status and reason values name (R191). -/
def statusOf (status reason : Nat) : Option Status :=
  match status, reason with
  | 0, 0 => some .accepted
  | 1, 1 => some (.notReady .held)
  | 1, 2 => some (.notReady .busy)
  | 1, 3 => some (.notReady .leaving)
  | 2, 0 => some .refused
  | 3, 0 => some .noWindow
  | 4, 0 => some .range
  | 5, 0 => some .fault
  | _, _ => none

/-- The reply that a received frame holds. -/
def replyOf (bytes : List Byte) : ReceivedReply where
  source := sourceOf bytes
  tag := tagOf bytes
  generation := generationOf bytes
  status := statusOf ((byteOf bytes 4).extractLsb' 0 3).toNat ((byteOf bytes 4).extractLsb' 4 2).toNat
  won := flagOf bytes
  window := (byteOf bytes 5).toNat
  offset := (joinHalf (byteOf bytes 6) (byteOf bytes 7)).toNat
  count := (byteOf bytes 8).toNat
  payloadLength := (payloadBytes bytes).length
  payload := joinWords (payloadBytes bytes)

/-- The notice that a received frame holds (R133). -/
def noticeOf (bytes : List Byte) : NoticeArrival where
  source := sourceOf bytes
  code := (byteOf bytes 3).toNat
  argument := (joinHalf (byteOf bytes 4) (byteOf bytes 5)).toNat

/-- A presence as the roster takes it (R153). An interval code of 0 is stored as 1 (R191). -/
structure ReceivedPresence where
  source : Nat
  incarnation : Byte
  fresh : Bool
  leaving : Bool
  interval : Byte
  mask : BitVec 16
deriving DecidableEq, Repr

/-- The presence that a received frame holds. -/
def presenceOf (bytes : List Byte) : ReceivedPresence where
  source := sourceOf bytes
  incarnation := byteOf bytes 3
  fresh := (byteOf bytes 4).getLsbD 0
  leaving := (byteOf bytes 4).getLsbD 1
  interval := if byteOf bytes 5 = 0 then 1 else byteOf bytes 5
  mask := joinHalf (byteOf bytes 6) (byteOf bytes 7)

end Sys2Proof.Machine
end

