-- ==== Sys2Proof/Machine/Tags.lean ====
section
/-! DEFINITION. The tags: dispositions, outcomes, completion writes, preparation, grants, reissue, replies and losses (R50
to R96). -/

namespace Sys2Proof.Machine

/-! ## Dispositions (R75 to R83) -/

/-- What the disposition of a RUNNING channel's entry makes of an outcome (R75). -/
inductive Verdict where
  | retry
  | complete
  | tolerate
  | halt (error : HaltError) (detail : HaltDetail)
deriving DecidableEq, Repr

/-- The successes of R76: ACCEPTED, and WON for a CLAIM. -/
def Result.isSuccess : Result → Bool
  | .accepted | .won _ => true
  | _ => false

/-- The previous value that an outcome carries (R60). -/
def Result.previous : Result → Option Word
  | .won v | .lost v => some v
  | _ => none

/-- The halt of an outcome that is not retried, with the detail of R42: UNCERTAIN for a CLAIM whose result is unknown,
else the error of the same name (R77, R81). -/
def haltVerdict (claim : Bool) (peer : Nat) (r : Result) : Verdict :=
  let plain (e : HaltError) : Verdict := .halt e ⟨some peer, none, none⟩
  let withStatus (e : HaltError) : Verdict := .halt e ⟨some peer, some r.code, none⟩
  match r with
  | .accepted | .won _ => .complete
  | .lost v => .halt .claimLost ⟨some peer, none, some v⟩
  | .notReady _ => withStatus .notReady
  | .refused => withStatus .refused
  | .noWindow => withStatus .noWindow
  | .range => withStatus .range
  | .remoteFault => withStatus .remoteFault
  | .absent => plain .absent
  | .timeout => if claim then withStatus .uncertain else plain .timeout
  | .peerLost => if claim then withStatus .uncertain else plain .peerLost
  | .link => if claim then withStatus .uncertain else plain .link
  | .bookingIdle => plain .bookingIdle
  | .waitTimeout => plain .waitTimeout

/-- Whether PERSIST retries an outcome while the limit allows (R81). -/
def Result.persists (claim : Bool) : Result → Bool
  | .lost _ | .notReady _ | .timeout | .link | .absent => true
  | .peerLost => !claim
  | _ => false

/-- The halt of an outcome whose attempts are exhausted: PERSIST_EXHAUSTED with the last outcome, or UNCERTAIN for a
CLAIM that ended TIMEOUT or LINK (R82). -/
def exhaustedVerdict (claim : Bool) (peer : Nat) (r : Result) : Verdict :=
  if claim && (r = .timeout || r = .link) then .halt .uncertain ⟨some peer, some r.code, none⟩
  else .halt .persistExhausted ⟨some peer, some r.code, r.previous⟩

/-- The verdict on an outcome of a segment to a named target (R76, R77, R79, R81, R82). -/
def verdict (e : Entry) (tag : Tag) (r : Result) : Verdict :=
  let claim : Bool := tag.operation = .claim
  if r.isSuccess then .complete
  else
    match e.disposition with
    | some .strict => haltVerdict claim tag.target r
    | some .persist =>
      if !r.persists claim then haltVerdict claim tag.target r
      else if tag.attempts < e.limit then .retry
      else exhaustedVerdict claim tag.target r
    | _ => .tolerate

/-! ## The end of a segment -/

/-- A segment of a channel is resolved (R26, R31). -/
def resolveSegment (c : Fin 4) (s : State) : State :=
  s.setChannel c { s.channel c with completed := (s.channel c).completed + 1 }

/-- An outcome is counted as tolerated and its segment is resolved (R79). -/
def tolerateSegment (c : Fin 4) (r : Result) (s : State) : State :=
  resolveSegment c (s.setChannel c ((s.channel c).tolerate r))

/-- A sweep's cursor takes a new value: the address after a peer whose segment is resolved (R86), or that of a peer whose
segment has failed, at which it stays (R41, R87, R89). While a peer's segment is outstanding the cursor stands where it
stood at the choice of that peer (chapter 4's example; DEDUCED, log entry 38). -/
def moveCursor (c : Fin 4) (cursor : Nat) (s : State) : State :=
  s.setChannel c { s.channel c with sweepCursor := cursor }

/-- A transaction's outcome requires a host write: the tag becomes completing, and its channel asks for the write after
those already waiting (R67, R100). -/
def askWrite (c : Fin 4) (t : Fin 16) (record : Option SweepRecord) (stage : WriteStage) (s : State) : State :=
  let s := s.setTag t { s.tag t with completing := true, timer := .stopped }
  s.setChannel c { s.channel c with
    writes := (s.channel c).writes ++ [⟨some t, (s.tag t).segment, record, stage, false⟩] }

/-- An ACCEPTED READ reply's words are to be placed at the tag's host destination (R67, R94). -/
def beginData (c : Fin 4) (t : Fin 16) (s : State) : State :=
  askWrite c t none (.writing (writesOf ((s.tag t).destination.getD []) ((s.tag t).payload.take (s.tag t).count))) s

/-- CHAIN_SHORT (R96): the segment is failed, and a RUNNING channel goes FAILING with the chain position as value. -/
def chainShort (c : Fin 4) (segment position : Nat) (s : State) : State :=
  failChannel c .chainShort ⟨none, none, some (BitVec.ofNat 32 position)⟩ segment s

/-- The accesses that a HOST_FAULT detail names, by the codes of R193. -/
inductive FaultAccess where
  | descriptor
  | payload
  | data
  | record
deriving DecidableEq, Repr

/-- The access codes of R193. -/
def FaultAccess.code : FaultAccess → Nat
  | .descriptor => 1
  | .payload => 2
  | .data => 3
  | .record => 4

/-- HOST_FAULT (R97): the segment is failed, and a RUNNING channel goes FAILING with the access and the address of its
first word. -/
def hostFault (c : Fin 4) (segment : Nat) (access : FaultAccess) (addr : Word) (s : State) : State :=
  failChannel c .hostFault ⟨none, some access.code, some addr⟩ segment s

/-- A tag's transaction, if it still has its tag, is released (R67, R68). -/
def releaseOwned (t : Option (Fin 16)) (s : State) : State :=
  match t with
  | some t => releaseTag t s
  | none => s

/-- A sweep READ's outcome is final: its record is to be written. The walk places the data words after the header; a
chain that ends within the record is found before any word is written, and the cursor stays at the peer (R67, R86, R87,
R95, R96). -/
def beginRecord (c : Fin 4) (t : Fin 16) (r : Result) (s : State) : State :=
  let tag := s.tag t
  let ch := s.channel c
  let words := if r = .accepted then tag.payload.take tag.count else []
  let record : SweepRecord := ⟨tag.target, r, words⟩
  let header := tag.header.getD 0
  let s := s.setChannel c { ch with sweepHeader := none }
  if words = [] then askWrite c t (some record) (.writing (record.accesses header [])) s
  else
    match walkOn ch.captured.chainAddress ch.walk ⟨ch.sweepPosition + 1, words.length, []⟩ with
    | (walk, request, answer) =>
      let s := s.setChannel c { s.channel c with walk := walk }
      match answer with
      | .placed => askWrite c t (some record) (.writing (record.accesses header request.pieces)) s
      | .fetch d => askWrite c t (some record) (.placing header request (fetchAccess d)) s
      | .short p => chainShort c tag.segment p (moveCursor c tag.target (releaseTag t s))

/-- A sweep segment's outcome, whatever it is, resolves it: a READ's by its record, a WRITE_IMMEDIATE's at once, counted
as tolerated unless it is ACCEPTED (R86). -/
def sweepOutcome (c : Fin 4) (t : Fin 16) (r : Result) (s : State) : State :=
  let tag := s.tag t
  if tag.operation = .read then beginRecord c t r s
  else
    let s := moveCursor c (tag.target + 1) (releaseTag t s)
    if r.isSuccess then resolveSegment c s else tolerateSegment c r s

/-- An outcome handed to a RUNNING channel (R63, R75, R86). -/
def runningOutcome (c : Fin 4) (t : Fin 16) (r : Result) (s : State) : State :=
  let tag := s.tag t
  if tag.sweep then sweepOutcome c t r s
  else
    match verdict (s.channel c).captured tag r with
    | .retry => s.setTag t { tag with state := .backoff, timer := .running s.retryInterval }
    | .complete =>
      if tag.operation = .read then beginData c t s
      else finishIfResolved c (resolveSegment c (releaseTag t s))
    | .tolerate => finishIfResolved c (tolerateSegment c r (releaseTag t s))
    | .halt error detail => failChannel c error detail tag.segment (releaseTag t s)

/-- An outcome handed to a FAILING channel is final (R41, R71). -/
def failingOutcome (c : Fin 4) (t : Fin 16) (r : Result) (s : State) : State :=
  let tag := s.tag t
  if tag.sweep then sweepOutcome c t r s
  else if r.isSuccess then
    if tag.operation = .read then beginData c t s else resolveSegment c (releaseTag t s)
  else if (s.channel c).captured.disposition = some .tolerant then tolerateSegment c r (releaseTag t s)
  else segmentFailed c tag.segment (releaseTag t s)

/-- An attempt ends: its frame is withdrawn from offer, its timer stops, and its outcome is handed to the owning channel
(R56, R63). A STOPPING channel acts on no outcome, and the tag is released (R39). -/
def attemptOutcome (t : Fin 16) (r : Result) (s : State) : State :=
  let s := withdrawTry (TryFrame.isRequestOf t) s
  let s := s.setTag t { s.tag t with lastOutcome := some r, timer := .stopped }
  match (s.tag t).owner with
  | none => s
  | some c =>
    match (s.channel c).state with
    | .running => runningOutcome c t r s
    | .failing => failingOutcome c t r s
    | _ => releaseTag t s

/-! ## The end of a completion write -/

/-- A completion write has ended without fault (R67, R94, R95): its tag is released, and unless its channel is STOPPING or
exclusion has freed the tag, the segment is completed; a sweep record moves the output position and the cursor. -/
def writeDone (c : Fin 4) (w : CompletionWrite) (s : State) : State :=
  let live : Bool := w.tag.isSome && ((s.channel c).state = .running || (s.channel c).state = .failing)
  let s := releaseOwned w.tag s
  if live then
    let s := match w.record with
      | some record =>
        moveCursor c (record.station + 1)
          (s.setChannel c { s.channel c with sweepPosition := (s.channel c).sweepPosition + record.length })
      | none => s
    finishIfResolved c (resolveSegment c s)
  else s

/-- The completion write at the head of a channel's writes leaves them. -/
def popWrite (c : Fin 4) (s : State) : State :=
  s.setChannel c { s.channel c with writes := (s.channel c).writes.tail }

/-- The completion write at the head changes its stage. -/
def setWriteStage (c : Fin 4) (w : CompletionWrite) (stage : WriteStage) (s : State) : State :=
  s.setChannel c { s.channel c with writes := { w with stage := stage } :: (s.channel c).writes.tail }

/-! ## Preparation (R51, R84, R93) -/

/-- The peer that a sweep chooses: the lowest qualifying address at or above its cursor (R85). -/
def State.sweepChoice (s : State) (c : Fin 4) : Option (Fin 40) :=
  let ch := s.channel c
  (List.finRange 40).find? fun i =>
    decide (ch.sweepCursor ≤ i.val + 1) && i.val + 1 != s.ownAddress && (s.peer i).present &&
      (s.peer i).mask.getLsbD ch.captured.window

/-- A preparation ends: the segment is prepared and waits for a tag (R51). -/
def segmentPrepared (c : Fin 4) (segment : Nat) (placement : List Piece) (s : State) : State :=
  s.setChannel c { s.channel c with preparation := none, prepared := some ⟨segment, placement⟩ }

/-- The placement of a segment has been found: a READ is prepared, a READ sweep keeps the placement of its record's
header, a WRITE goes on to read its words (R93, R95). -/
def segmentPlaced (c : Fin 4) (segment : Nat) (pieces : List Piece) (s : State) : State :=
  let ch := s.channel c
  if ch.captured.isSweep then
    segmentPrepared c segment [] (s.setChannel c { ch with sweepHeader := pieces.head?.map Piece.addr })
  else if ch.captured.operation = .read then segmentPrepared c segment pieces s
  else
    match pieces with
    | [] => segmentPrepared c segment [] s
    | p :: rest =>
      s.setChannel c { ch with
        preparation := some ⟨segment, .payload pieces [] (ReadAccess.start p.addr p.count) rest, false⟩ }

/-- The walk goes on with a preparation's request (R92): the span is placed, the chain is short, or a descriptor is to be
fetched. -/
def walkPreparation (c : Fin 4) (segment : Nat) (request : WalkRequest) (s : State) : State :=
  let ch := s.channel c
  match walkOn ch.captured.chainAddress ch.walk request with
  | (walk, request, answer) =>
    let s := s.setChannel c { ch with walk := walk, preparation := none }
    match answer with
    | .placed => segmentPlaced c segment request.pieces s
    | .short p => chainShort c segment p s
    | .fetch d =>
      s.setChannel c { s.channel c with preparation := some ⟨segment, .fetching request (fetchAccess d), false⟩ }

/-- A channel may begin preparing its next segment (R51): it is RUNNING at a request-making entry, not paused at a held
event, with nothing prepared or being prepared, and its outstanding tags are below the entry limit. -/
def State.mayPrepare (s : State) (c : Fin 4) : Bool :=
  let ch := s.channel c
  ch.state = .running && ch.heldSlot.isNone && ch.preparation.isNone && ch.prepared.isNone &&
    ch.captured.makesRequests && decide (s.outstanding c < ch.captured.limitOutstanding) &&
    (ch.captured.isSweep || decide (ch.nextSegment < ch.captured.segments))

/-- A channel prepares its next segment (R51, R84, R93): a sweep first looks for a qualifying peer, and its entry is
finished when there is none. -/
def prepareSegment (c : Fin 4) (s : State) : State :=
  let ch := s.channel c
  let e := ch.captured
  if !s.mayPrepare c then s
  else if e.isSweep && (s.sweepChoice c).isNone then finishEntry c s
  else if e.usesChain then
    walkPreparation c ch.nextSegment
      (if e.isSweep then ⟨ch.sweepPosition, 1, []⟩
        else ⟨16 * ch.nextSegment, e.segmentWords ch.nextSegment, []⟩) s
  else segmentPrepared c ch.nextSegment [] s

/-! ## The allocator (R52 to R55) -/

/-- A CLAIM of this station to a target is outstanding (R54). -/
def State.claimOutstanding (s : State) (target : Nat) : Bool :=
  s.engine.tags.toList.any fun t => t.operation = .claim && t.target = target && t.owned

/-- A channel is a candidate of the allocator (R52). -/
def State.candidate (s : State) (c : Fin 4) : Bool :=
  let ch := s.channel c
  s.station.state = .joined && ch.state = .running && ch.prepared.isSome &&
    decide (s.outstanding c < ch.captured.limitOutstanding) &&
    !(ch.captured.kind = some .claim && s.claimOutstanding ch.captured.target)

/-- The lowest-numbered FREE tag (R53). -/
def State.freeTag (s : State) : Option (Fin 16) := (List.finRange 16).find? fun t => (s.tag t).state = .free

/-- A tag filled from a prepared segment and its channel's captured entry, towards a target (R55). -/
def filledTag (old : Tag) (c : Fin 4) (ch : Channel) (p : PreparedSegment) (target : Nat) : Tag :=
  let e := ch.captured
  { old with
    state := .queued
    owner := some c
    segment := p.segment
    sweep := e.isSweep
    operation := e.operation
    target := target
    window := e.window
    offset := e.segmentOffset p.segment
    count := e.segmentWords p.segment
    generation := !old.generation
    attempts := 1
    onLine := false
    lastAnswered := false
    unanswered := false
    completing := false
    lastOutcome := none
    destination := if e.operation = .read && !e.isSweep then some p.placement else none
    payload := if e.operation = .read then old.payload
      else if e.usesChain then ch.issueBuffer else e.ownPayload
    timer := .stopped
    tries := 0
    repeated := false
    sameOnLine := false
    otherOnLine := false
    header := if e.isSweep then ch.sweepHeader else none }

/-- The roster is looked at for an attempt that begins: towards a PRESENT target the tag stays QUEUED, towards an ABSENT
one the attempt ends at once with ABSENT (R55, R64). -/
def attemptBegins (t : Fin 16) (s : State) : State :=
  if s.isPresent (s.tag t).target then s else attemptOutcome t .absent s

/-- A FREE tag is granted to a channel for its prepared segment, towards a target (R53, R55). -/
def grantTag (c : Fin 4) (t : Fin 16) (p : PreparedSegment) (target : Nat) (s : State) : State :=
  let ch := s.channel c
  let s := s.setTag t (filledTag (s.tag t) c ch p target)
  let s := s.setChannel c { ch with
    nextSegment := ch.nextSegment + 1
    prepared := none
    issueBuffer := zeroWords }
  attemptBegins t { s with engine := { s.engine with lastServed := c } }

/-- A sweep that finds no qualifying peer at its grant: the prepared segment is discarded and the entry is finished (R53,
R84). -/
def discardSweep (c : Fin 4) (s : State) : State :=
  finishEntry c (s.setChannel c { s.channel c with prepared := none, sweepHeader := none })

/-- The target of a channel's prepared segment: the entry's, or the peer that its sweep chooses (R53, R85). -/
def State.grantTarget (s : State) (c : Fin 4) : Option Nat :=
  if (s.channel c).captured.isSweep then (s.sweepChoice c).map fun i => i.val + 1
  else some (s.channel c).captured.target

/-- The allocator goes through the channels in order and grants the lowest FREE tag to the first candidate that has a
target (R53). -/
def grantFrom : List (Fin 4) → State → State
  | [], s => s
  | c :: rest, s =>
    if s.candidate c then
      match s.freeTag, (s.channel c).prepared, s.grantTarget c with
      | some t, some p, some target => grantTag c t p target s
      | some _, some _, none => grantFrom rest (discardSweep c s)
      | _, _, _ => s
    else grantFrom rest s

/-! ## Reissue and expiries (R62, R64, R65, R69) -/

/-- The next attempt of a BACKOFF tag (R64, R65): the generation flips after an answered attempt, else it is kept, and the
repeat flag is set when an earlier attempt with it was put on the line, also one made before two flips brought the
generation back (DEDUCED, log entry 46). -/
def reissue (t : Fin 16) (s : State) : State :=
  let tag := s.tag t
  let same := tag.sameOnLine || tag.onLine
  let tag := if tag.lastAnswered then { tag with
      generation := !tag.generation
      repeated := false
      sameOnLine := tag.otherOnLine
      otherOnLine := same }
    else { tag with repeated := same, sameOnLine := same }
  attemptBegins t (s.setTag t { tag with
    state := .queued
    attempts := tag.attempts + 1
    onLine := false
    lastAnswered := false
    timer := .stopped
    tries := 0 })

/-- A reply deadline expires: TIMEOUT, unanswered (R62, R66). -/
def deadlineExpired (t : Fin 16) (s : State) : State :=
  let tag := s.tag t
  if tag.state = .sent && !tag.completing && tag.timer.isRunning then
    attemptOutcome t .timeout (s.setTag t { tag with unanswered := true })
  else s

/-- A retry interval expires (R64). -/
def retryExpired (t : Fin 16) (s : State) : State :=
  let tag := s.tag t
  if tag.state = .backoff && tag.timer.isRunning then reissue t s else s

/-- A cooling time expires: the tag goes FREE (R69). -/
def coolingExpired (t : Fin 16) (s : State) : State :=
  let tag := s.tag t
  if tag.state = .cooling && tag.timer.isRunning then s.setTag t { tag with state := .free, timer := .stopped } else s

/-! ## Replies (R58 to R61) -/

/-- A reply matches a tag (R58). -/
def ReceivedReply.matchesTag (r : ReceivedReply) (tag : Tag) : Bool :=
  tag.owned && !tag.completing && r.source = tag.target && r.generation = tag.generation

/-- The number of payload words that a status and an operation give (R59). -/
def replyWords (status : Status) (tag : Tag) : Nat :=
  match status, tag.operation with
  | .accepted, .read => tag.count
  | .accepted, .claim => 1
  | _, _ => 0

/-- A reply's contents fit the tag's request (R59, R191). -/
def ReceivedReply.fits (r : ReceivedReply) (tag : Tag) : Bool :=
  match r.status with
  | some status =>
    r.window = tag.window && r.offset = tag.offset && r.count = tag.count &&
      r.payloadLength = 4 * replyWords status tag
  | none => false

/-- The outcome that a reply's status gives (R60). -/
def ReceivedReply.outcome (r : ReceivedReply) (tag : Tag) : Result :=
  match r.status with
  | some .accepted =>
    match tag.operation with
    | .claim => if r.won then .won (r.payload.headD 0) else .lost (r.payload.headD 0)
    | _ => .accepted
  | some (.notReady reason) => .notReady reason
  | some .refused => .refused
  | some .noWindow => .noWindow
  | some .range => .range
  | _ => .remoteFault

/-- A reply addressed to the station is matched and checked; it completes the attempt of its tag, or is stale and counted
(R58 to R61). -/
def replyArrival (r : ReceivedReply) (s : State) : State :=
  let tag := s.tag r.tag
  if r.matchesTag tag && r.fits tag then
    let outcome := r.outcome tag
    attemptOutcome r.tag outcome (s.setTag r.tag { tag with
      lastAnswered := true
      payload := if tag.operation = .read && outcome = .accepted then r.payload else tag.payload })
  else { s with counters := { s.counters with staleReplies := satInc s.counters.staleReplies } }

/-! ## Losses and exclusion (R70, R73) -/

/-- A lost peer reaches a tag (R70): its attempt ends with PEER_LOST, unanswered if a try of it has been on the line. -/
def tagPeerLost (address : Nat) (s : State) (t : Fin 16) : State :=
  let tag := s.tag t
  if tag.owned && !tag.completing && tag.target = address then
    attemptOutcome t .peerLost (s.setTag t { tag with
      unanswered := tag.unanswered || tag.state = .sent || (tag.state = .queued && tag.onLine) })
  else s

/-- Exclusion frees a tag; its generation and its other fields are kept (R73). Completing is cleared with the write that
it marks (R48; DEDUCED, log entry 40). -/
def Tag.exclude (tag : Tag) : Tag :=
  { tag with state := .free, owner := none, completing := false, timer := .stopped }

/-- A return to OFFLINE frees a COOLING tag (R74). -/
def Tag.endCooling (tag : Tag) : Tag :=
  if tag.state = .cooling then { tag with state := .free, timer := .stopped } else tag

end Sys2Proof.Machine
end

