-- ==== Sys2Proof/Machine/Notices.lean ====
section
/-! DEFINITION. The notice unit: the transmit queue, the evaluation of arriving notices against the bookings, and their
actions (R128 to R141). -/

namespace Sys2Proof.Machine

/-! ## The transmit queue (R128 to R130) -/

/-- A notice frame joins the tail of the queue (R128). -/
def placeNotice (n : QueuedNotice) (s : State) : State :=
  { s with notices := { s.notices with queue := s.notices.queue ++ [n] } }

/-- A channel has a frame to place (R20, R129). -/
def State.hasNotice (s : State) (c : Fin 4) : Bool :=
  (s.channel c).state = .running && (s.channel c).noticeWait = .place

/-- A free place is handed to the next channel in rotation that has a frame to place (R129). -/
def grantNoticePlace (s : State) : State :=
  if s.notices.queue.length < 4 then
    match (rotation4 s.notices.lastServed).find? s.hasNotice with
    | some c =>
      let ch := s.channel c
      let e := ch.captured
      let s := placeNotice ⟨e.destination, e.noticeCode, e.argument, .channel c, 0⟩ s
      let s := s.setChannel c { ch with noticeWait := .echo }
      { s with notices := { s.notices with lastServed := c } }
    | none => s
  else s

/-- The owner of a frame whose transmission ends is told (R130). -/
def reportNotice (n : QueuedNotice) (complete : Bool) (s : State) : State :=
  match n.origin with
  | .channel c =>
    if (s.channel c).state = .running && (s.channel c).noticeWait = .echo then
      let s := s.setChannel c { s.channel c with noticeWait := .absent }
      if complete then finishEntry c s else endUnmet c .link .link HaltDetail.none s
    else s
  | .host => if complete then s else offerDroppable (.noticeSendFailed n.code n.destination) s
  | .detached => s

/-! ## Bookings (R134 to R138) -/

/-- A booking matches an arrival (R135): ARMED, its filter ANY or the source, its code the arrival's. -/
def Booking.matchesArrival (b : Booking) (n : NoticeArrival) : Bool :=
  b.state = .armed && (b.filter = none || b.filter = some n.source) && b.code = n.code

/-- A channel is WAITING on a booking (R137). -/
def State.waitsOn (s : State) (b : Fin 16) (c : Fin 4) : Bool :=
  (s.channel c).state = .waiting && (s.channel c).waitBooking = some b

/-- Some channel is WAITING on a booking. -/
def State.hasWaiter (s : State) (b : Fin 16) : Bool := (List.finRange 4).any (s.waitsOn b)

/-- A WAITING channel is released: its WAIT entry is finished and the next entry begins (R32, R34). -/
def releaseChannel (c : Fin 4) (s : State) : State :=
  finishEntry c (s.setChannel c { s.channel c with state := .running, waitBooking := none, waitTimer := .stopped })

/-- The RELEASE action (R137): every channel WAITING on the booking is released, or the latch is set. Several are
released, and begin their next entries, in the order of their numbers (DESIGN CHOICE, log entry 36). -/
def releaseAction (b : Fin 16) (s : State) : State :=
  match (List.finRange 4).filter (s.waitsOn b) with
  | [] => s.setBooking b { s.booking b with latch := true }
  | waiters => waiters.foldl (fun s c => releaseChannel c s) s

/-- A channel that a booking has started, and the entry it begins once the evaluation is complete (R136). -/
structure StartedChannel where
  channel : Fin 4
  entry : Nat
deriving DecidableEq, Repr

/-- The START action (R29, R136): an IDLE channel of a JOINED station goes RUNNING with the booking as start source, to
begin its entry later; else START_MISSED is raised. -/
def startAction (b : Fin 16) (s : State) : State × Option StartedChannel :=
  let booking := s.booking b
  if h : booking.startChannel < 4 then
    let c : Fin 4 := ⟨booking.startChannel, h⟩
    if s.station.state = .joined && (s.channel c).state = .idle then
      (s.setChannel c ((s.channel c).start (.booking b)), some ⟨c, booking.startEntry⟩)
    else (offerDroppable (.startMissed b c) s, none)
  else (s, none)

/-- One matching booking acts: count, POST, START, RELEASE, and SPENT in mode ONCE (R135, R136, R138). -/
def bookingActs (n : NoticeArrival) (b : Fin 16) (s : State) : State × Option StartedChannel :=
  let s := s.setBooking b { s.booking b with matchCount := satInc (s.booking b).matchCount }
  let booking := s.booking b
  let s := if booking.post then offerDroppable (.noticeSeen b n.source n.code n.argument) s else s
  let (s, started) := if booking.start then startAction b s else (s, none)
  let s := if booking.release then releaseAction b s else s
  let s := if booking.once then s.setBooking b { s.booking b with state := .spent } else s
  (s, started)

/-- The bookings of a list are compared with an arrival, one after the other (R135); the channels started are gathered in
order. -/
def compareBookings (n : NoticeArrival) : List (Fin 16) → State → State × List StartedChannel
  | [], s => (s, [])
  | b :: rest, s =>
    if (s.booking b).matchesArrival n then
      match bookingActs n b s with
      | (s, started) =>
        match compareBookings n rest s with
        | (s, later) => (s, started.toList ++ later)
    else compareBookings n rest s

/-- A notice arrival (R133, R135): evaluated against the bookings in JOINED and LEAVING, after which the channels it has
started begin their entries (R136), in the order of the bookings that started them (DESIGN CHOICE, log entry 37);
discarded in the other states. -/
def noticeArrival (n : NoticeArrival) (s : State) : State :=
  if s.onTrunk then
    match compareBookings n (List.finRange 16) s with
    | (s, started) => started.foldl (fun s st => beginEntry st.entry st.channel s) s
  else s

/-! ## Wait timers (R34) -/

/-- A wait timer expires: WAIT_TIMEOUT, halting or tolerated (R22, R34). -/
def waitExpired (c : Fin 4) (s : State) : State :=
  let ch := s.channel c
  if ch.state = .waiting && ch.waitTimer.isRunning then
    endUnmet c .waitTimeout .waitTimeout
      ⟨none, none, ch.waitBooking.map fun b => BitVec.ofNat 32 b.val⟩ s
  else s

/-! ## BOOK and UNBOOK (R139, R140) -/

/-- The booking that BOOK writes (R139). -/
def Booking.written (a : Arguments) (once : Bool) : Booking where
  state := .armed
  filter := if a.filter = 0 then none else some a.filter
  code := a.bookCode
  post := a.post
  start := a.starts
  release := a.releases
  startChannel := a.bookChannel
  startEntry := a.bookEntry
  once := once
  matchCount := 0
  latch := false

/-- The arguments of BOOK are in range (R139). -/
def Arguments.book (a : Arguments) : Option (Fin 16 × Bool) :=
  match a.booking, a.once with
  | some b, some once =>
    if 40 < a.filter || a.bookCode = 0 || (a.starts && (3 < a.bookChannel || 1023 < a.bookEntry)) then none
    else some (b, once)
  | _, _ => none

/-- The booking state values (R195). -/
def BookingState.code : BookingState → Nat
  | .free => 0
  | .armed => 1
  | .spent => 2

/-- The values that UNBOOK returns in argument 1 (R140, R195). -/
def State.bookingWord (s : State) (b : Fin 16) : Word :=
  place (s.booking b).state.code 0 ||| flagAt (s.booking b).latch 8 ||| flagAt (s.hasWaiter b) 9 |||
    place (s.booking b).matchCount 16

end Sys2Proof.Machine
end

