-- ==== Sys2Proof/Machine/Responder.lean ====
section
/-! DEFINITION. The responder: windows, arrivals, the work queue, the memos and the window commands' effects (R104 to
R127). -/

namespace Sys2Proof.Machine

/-! ## Halves and completion conditions (R106, R122, R124) -/

/-- The other half. -/
def WindowHalf.other : WindowHalf → WindowHalf
  | .a => .b
  | .b => .a

/-- The base of a half (R106). -/
def Window.base (w : Window) (half : WindowHalf) : Word := if half = .a then w.baseA else w.baseB

/-- The half that a work item captures (R106). -/
def Window.capturedHalf (w : Window) (op : Operation) : WindowHalf :=
  if !w.paired then .a
  else if op = .read then w.published
  else w.published.other

/-- The window's event list holds a WINDOW_HELD: it has been raised for the hold pending (R124). -/
def Window.heldRaised (w : Window) : Bool :=
  w.events.any fun e => match e with
    | .windowHeld _ => true
    | _ => false

/-- The window's event list holds a WINDOW_FLIPPED: it has been raised for the flip pending (R124). -/
def Window.flippedRaised (w : Window) : Bool :=
  w.events.any fun e => match e with
    | .windowFlipped _ _ => true
    | _ => false

/-- The completion conditions applied to a window's record with the given in-work counts, in order: hold, flip, close
(R124). -/
def Window.complete (w : Window) (i : Fin 16) (inWork : WindowHalf → Nat) : Window :=
  let drained := decide (inWork .a = 0 ∧ inWork .b = 0)
  let w := if w.holdPending && !w.heldRaised && drained then { w with events := w.events ++ [.windowHeld i] } else w
  let w :=
    if w.flipPending && !w.flippedRaised && inWork w.published.other = 0 then
      { w with events := w.events ++ [.windowFlipped i w.published] }
    else w
  if w.state = .closing && drained then { w with state := .closed, events := w.events ++ [.windowClosed i] } else w

/-- The completion conditions of a window are tested (R124). -/
def testWindow (i : Fin 16) (s : State) : State := s.setWindow i ((s.window i).complete i (s.inWork i))

/-- The completion conditions of every window are tested (R126). -/
def testWindows (s : State) : State := (List.finRange 16).foldl (fun s i => testWindow i s) s

/-! ## Replies (R110, R115, R171) -/

/-- A reply joins the tail of the reply queue (R171). -/
def placeReply (r : Reply) (reserved : Bool) (s : State) : State :=
  { s with trunk := { s.trunk with replies := s.trunk.replies ++ [⟨r, reserved, 0⟩] } }

/-- The reply to an arrival (R110). -/
def Request.reply (r : Request) (status : Status) (won : Bool) (payload : List Word) : Reply :=
  ⟨r.source, r.tag, r.generation, status, won, r.window, r.offset, r.count, payload⟩

/-- An immediate reply takes an immediate slot; with all four taken the arrival is dropped and counted (R110). -/
def immediateReply (r : Reply) (s : State) : State :=
  if s.immediateTaken < 4 then placeReply r false s
  else { s with counters := { s.counters with droppedRequests := satInc s.counters.droppedRequests } }

/-! ## The work queue (R111 to R116) -/

/-- How the access of a work item begins (R101, R113, R114). -/
def WorkItem.firstStage (item : WorkItem) : ItemStage :=
  match item.operation with
  | .read => .reading (ReadAccess.start item.addr item.count.toNat)
  | .write => .writing (WriteAccess.start item.addr item.payload)
  | .claim => .claimRead

/-- The item at the head begins to execute when no item is executing (R112, R113). -/
def executeHead (s : State) : State :=
  match s.responder.execution, s.responder.queue with
  | none, item :: _ => { s with responder := { s.responder with execution := some ⟨item.firstStage, false⟩ } }
  | _, _ => s

/-- The work item of an arrival against a window (R106, R111). -/
def Request.workItem (r : Request) (i : Fin 16) (w : Window) : WorkItem where
  source := r.source
  tag := r.tag
  generation := r.generation
  operation := r.operation
  window := i
  offset := r.offset
  count := r.count
  half := w.capturedHalf r.operation
  addr := wordsOn (w.base (w.capturedHalf r.operation)) r.offset.toNat
  payload := r.payload
  memoDue := r.operation = .claim

/-- A work item joins the tail of the queue and begins to execute if it is at the head (R111, R112). -/
def queueItem (item : WorkItem) (s : State) : State :=
  executeHead { s with responder := { s.responder with queue := s.responder.queue ++ [item] } }

/-! ## Arrivals (R107 to R109) -/

/-- A window's access admits an operation (R106). -/
def Window.admits (w : Window) (op : Operation) : Bool :=
  match op, w.access with
  | .read, .readOnly | .read, .readWrite => true
  | .write, .writeOnly | .write, .readWrite => true
  | .claim, .readWrite => !w.paired
  | _, _ => false

/-- A window's permit set holds a station (R104, R106). -/
def Window.permits (w : Window) (address : Nat) : Bool := 1 ≤ address && w.permit.getLsbD (address - 1)

/-- The memo of an arrival's source answers the arrival: same tag and generation (R109, check 6). -/
def Request.memoAnswers (r : Request) (memo : Option Memo) : Bool :=
  match memo with
  | some m => m.tag = r.tag && m.generation = r.generation
  | none => false

/-- A CLAIM item of the arrival's source, tag and generation, with its memo write due, is in the queue (R109, check 7). -/
def Request.inQueue (r : Request) (queue : List WorkItem) : Bool :=
  queue.any fun item => item.operation = .claim && item.memoDue && item.source = r.source && item.tag = r.tag &&
    item.generation = r.generation

/-- An arrival with its repeat flag clear empties the memo of its source when it reuses the memo's tag or is a new CLAIM
(R109). -/
def emptyMemoOnArrival (r : Request) (s : State) : State :=
  match stationIndex r.source with
  | some i =>
    match s.memo i with
    | some m => if !r.repeated && (m.tag = r.tag || r.operation = .claim) then s.setMemo i none else s
    | none => s
  | none => s

/-- The memo of a source address. -/
def State.memoOf (s : State) (address : Nat) : Option Memo :=
  match stationIndex address with
  | some i => s.memo i
  | none => none

/-- The window that a request's window byte names; a byte above 15 names none (R191). -/
def Request.windowIndex (r : Request) : Option (Fin 16) :=
  if h : r.window.toNat < 16 then some ⟨r.window.toNat, h⟩ else none

/-- Checks 3 to 5 of R108 against an open or held window: the status of the immediate answer, if one applies. -/
def Request.windowCheck (r : Request) (w : Window) : Option Status :=
  if !w.permits r.source || !w.admits r.operation then some .refused
  else if r.count = 0 || decide (16 < r.count.toNat) || (r.operation = .claim && r.count != 1) ||
      decide (w.size < r.offset.toNat + r.count.toNat) then some .range
  else if w.state = .held then some (.notReady .held)
  else none

/-- The checks 1 to 9 of R108 in order. -/
def judgeRequest (r : Request) (s : State) : State :=
  if s.station.state = .leaving then immediateReply (r.reply (.notReady .leaving) false []) s
  else
    match r.windowIndex with
    | none => immediateReply (r.reply .noWindow false []) s
    | some i =>
      let w := s.window i
      if !w.advertised then immediateReply (r.reply .noWindow false []) s
      else
        match r.windowCheck w with
        | some status => immediateReply (r.reply status false []) s
        | none =>
          if r.operation = .claim && r.repeated && r.memoAnswers (s.memoOf r.source) then
            match s.memoOf r.source with
            | some m => immediateReply (r.reply .accepted m.won [m.previous]) s
            | none => s
          else if r.operation = .claim && r.repeated && r.inQueue s.responder.queue then s
          else if 8 ≤ s.reservedTaken then immediateReply (r.reply (.notReady .busy) false []) s
          else queueItem (r.workItem i w) s

/-- A request addressed to the station (R107): judged in JOINED and LEAVING, after it has acted on the memo of its source;
discarded in the other states. -/
def requestArrival (r : Request) (s : State) : State :=
  if s.onTrunk then judgeRequest r (emptyMemoOnArrival r s) else s

/-! ## Completion of work items (R113 to R115, R126) -/

/-- What the memory access unit hands the responder at the end of an item's access (R101, R102). -/
inductive ItemResult where
  | done (words : List Word)
  | won (previous : Word)
  | lost (previous : Word)
  | fault
deriving DecidableEq, Repr

/-- The reply of a completed item (R113, R114, R115). -/
def WorkItem.reply (item : WorkItem) (result : ItemResult) : Reply :=
  let make (status : Status) (won : Bool) (payload : List Word) : Reply :=
    ⟨item.source, item.tag, item.generation, status, won, toByte item.window.val, item.offset, item.count, payload⟩
  match result with
  | .done words => make .accepted false words
  | .won v => make .accepted true [v]
  | .lost v => make .accepted false [v]
  | .fault => make .fault false []

/-- The memo that a completed item writes, when its memo write is due (R114). -/
def WorkItem.newMemo (item : WorkItem) (result : ItemResult) : Option Memo :=
  if !item.memoDue then none
  else
    match result with
    | .won v => some ⟨item.tag, item.generation, v, true⟩
    | .lost v => some ⟨item.tag, item.generation, v, false⟩
    | _ => none

/-- A memo is written for an item's source (R114). -/
def writeMemo (item : WorkItem) (result : ItemResult) (s : State) : State :=
  match item.newMemo result, stationIndex item.source with
  | some memo, some i => s.setMemo i (some memo)
  | _, _ => s

/-- The item at the head leaves the queue, its window is tested, and the next item begins (R115). -/
def leaveQueue (item : WorkItem) (s : State) : State :=
  let s := { s with responder := { s.responder with queue := s.responder.queue.tail, execution := none } }
  executeHead (testWindow item.window s)

/-- The executing item completes (R115); one that an exclusion has discarded makes no reply and no memo (R126). -/
def completeItem (item : WorkItem) (e : Execution) (result : ItemResult) (s : State) : State :=
  if e.discarded then leaveQueue item s
  else leaveQueue item (writeMemo item result (placeReply (item.reply result) true s))

/-! ## Losses, exclusion (R118, R126) -/

/-- A peer's queued CLAIM items have their memo writes made no longer due (R118). -/
def WorkItem.loseSource (address : Nat) (item : WorkItem) : WorkItem :=
  if item.source = address then { item with memoDue := false } else item

/-- A lost peer at the responder: its memo is emptied, its items' memo writes are no longer due (R118). -/
def responderPeerLost (address : Nat) (s : State) : State :=
  let s := { s with responder := { s.responder with queue := s.responder.queue.map (WorkItem.loseSource address) } }
  match stationIndex address with
  | some i => s.setMemo i none
  | none => s

/-- Every memo emptied (R117). -/
def clearMemos (s : State) : State :=
  { s with responder := { s.responder with memos := Vector.replicate 40 none } }

/-- Exclusion at the responder: the items not executing are discarded, the executing one goes on to no reply, the memos
are emptied (R126). The windows are tested when the rest of the exclusion is done. -/
def excludeResponder (s : State) : State :=
  clearMemos { s with responder := { s.responder with
    queue := match s.responder.execution with
      | some _ => (s.responder.queue.take 1).map fun item => { item with memoDue := false }
      | none => []
    execution := s.responder.execution.map fun e => { e with discarded := true } } }

/-! ## Window commands (R119 to R123) -/

/-- The window that WINDOW_SET defines and opens (R119). -/
def Window.define (w : Window) (access : Access) (a : Arguments) : Window :=
  { w with
    state := .opened
    access := access
    paired := a.paired
    baseA := a[1]
    baseB := a[2]
    size := a.size
    permit := a.permit
    published := .a
    holdPending := false
    flipPending := false }

/-- The arguments of WINDOW_SET are in range (R119, and 6.5 for the window). -/
def Arguments.windowSet (a : Arguments) : Option (Fin 16 × Access) :=
  match a.setWindow, a.access with
  | some w, some access =>
    if field a[1] 0 2 != 0 || (a.paired && field a[2] 0 2 != 0) then none else some (w, access)
  | _, _ => none

end Sys2Proof.Machine
end

