-- ==== Sys2Proof/Machine/StationControl.lean ====
section
/-! DEFINITION. Station control and the roster: presence, peers, the transitions of the station state and what each hands
to the other blocks (R142 to R162). -/

namespace Sys2Proof.Machine

/-! ## Presence (R149 to R151) -/

/-- The presence frame made at this event (R149). -/
def State.madePresence (s : State) (leaving : Bool) : Presence :=
  ⟨s.station.config.incarnation, s.station.fresh, leaving, s.station.config.presenceInterval, s.advertisedMask, 0⟩

/-- A presence frame is made the pending presence; a try of the one it replaces runs to its end (R149). -/
def makePresence (leaving : Bool) (s : State) : State :=
  let line := s.trunk.line.map fun try_ =>
    match try_.frame, try_.fate with
    | .presence _, .live => { try_ with fate := .replaced }
    | _, _ => try_
  { s with
    station := { s.station with pending := some (s.madePresence leaving) }
    trunk := { s.trunk with line := line } }

/-- The presence timer starts with P (R149). -/
def startPresenceTimer (s : State) : State :=
  { s with station := { s.station with presenceTimer := .running s.presenceInterval } }

/-- An ordinary presence is made and the presence timer starts again, unless the farewell has been offered (R149). -/
def ordinaryPresence (s : State) : State :=
  if s.station.farewellOffered then s else startPresenceTimer (makePresence false s)

/-- A change of the advertised mask, seen while JOINED or LEAVING (R149, R151). -/
def maskChanged (s : State) : State := if s.onTrunk then ordinaryPresence s else s

/-! ## The roster (R152 to R155) -/

/-- Every roster entry cleared, without records (R152). -/
def clearRoster (s : State) : State :=
  { s with station := { s.station with roster := Vector.replicate 40 Peer.reset } }

/-- A lost peer is handed on to the engine and the responder (R155). Of several tags towards it, the lowest-numbered ends
first (R70, R75; DESIGN CHOICE, log entry 39). -/
def peerLost (address : Nat) (s : State) : State :=
  responderPeerLost address ((List.finRange 16).foldl (tagPeerLost address) s)

/-- A roster entry with what a presence frame carries (R153). -/
def ReceivedPresence.peer (p : ReceivedPresence) : Peer :=
  ⟨true, p.incarnation, p.mask, p.interval, silenceTimer p.interval⟩

/-- A presence frame is taken by the roster (R153). -/
def presenceArrival (p : ReceivedPresence) (s : State) : State :=
  if s.station.state = .listening || s.onTrunk then
    match stationIndex p.source with
    | none => s
    | some i =>
      let old := s.peer i
      if !old.present then
        if p.leaving then s
        else offerDroppable (.peerJoined p.source p.incarnation) (s.setPeer i p.peer)
      else if p.leaving then
        offerDroppable (.peerLost p.source .leaving)
          (peerLost p.source (s.setPeer i { old with present := false, silence := .stopped }))
      else if p.fresh || old.incarnation != p.incarnation then
        offerDroppable (.peerJoined p.source p.incarnation)
          (offerDroppable (.peerLost p.source .restarted) (peerLost p.source (s.setPeer i p.peer)))
      else s.setPeer i { p.peer with incarnation := old.incarnation }
  else s

/-- Every frame of a PRESENT peer with a good check restarts its silence timer (R154, R172). -/
def restartSilence (address : Nat) (s : State) : State :=
  match stationIndex address with
  | some i =>
    if (s.peer i).present then s.setPeer i { s.peer i with silence := silenceTimer (s.peer i).interval } else s
  | none => s

/-- A silence timer expires: the peer is lost, its entry ABSENT (R154). -/
def silenceExpired (address : Nat) (s : State) : State :=
  match stationIndex address with
  | some i =>
    let old := s.peer i
    if old.present && old.silence.isRunning then
      offerDroppable (.peerLost address .silent)
        (peerLost address (s.setPeer i { old with present := false, silence := .stopped }))
    else s
  | none => s

/-! ## Transitions of the station state -/

/-- A return to OFFLINE (R146, R152, R74, R127, R171, R174): the timers, the pending presence and the marks cleared, the
roster cleared, the memos emptied, COOLING tags FREE, the reply queue and the yield flag empty, and the STATION record
raised. Channels, windows, bookings, the list store, the ring and the configuration are kept. -/
def returnOffline (e : StationEvent) (s : State) : State :=
  let s := clearMemos (clearRoster s)
  raiseStation e { s with
    station := { s.station with
      state := .offline
      listeningTimer := .stopped
      presenceTimer := .stopped
      fresh := false
      pending := none
      farewellOffered := false }
    engine := { s.engine with tags := mapAll Tag.endCooling s.engine.tags }
    trunk := { s.trunk with replies := [], yielding := false } }

/-- A try on the line whose frame an exclusion flushes (R160, R170). -/
def Try.flush (t : Try) : Try := { t with fate := .withdrawn }

/-- Exclusion (R45, R73, R103, R126, R132, R160): the station goes EXCLUDED; the queues are flushed, the channels respond,
every tag is FREE, the work queue is discarded, roster and memos are cleared, and STATION EXCLUDED is raised. -/
def exclude (s : State) : State :=
  let channels := Vector.ofFn fun c : Fin 4 => (s.channel c).exclude (s.excludedResume c) (s.excludedCursor c)
  let s := { s with
    engine := { s.engine with channels := channels, tags := mapAll Tag.exclude s.engine.tags }
    notices := { s.notices with queue := [] }
    trunk := { s.trunk with replies := [], yielding := false, line := s.trunk.line.map Try.flush }
    station := { s.station with
      state := .excluded
      presenceTimer := .stopped
      fresh := false
      pending := none
      farewellOffered := false } }
  raiseStation .excluded (testWindows (clearRoster (excludeResponder s)))

/-- An address conflict, by the station state (R148, R160). -/
def addressConflict (s : State) : State :=
  match s.station.state with
  | .offline | .excluded => s
  | .listening => returnOffline .joinFailed s
  | .joined | .leaving => exclude s

/-- The listening timer expires: the station is JOINED (R148). -/
def listeningExpired (s : State) : State :=
  if s.station.state = .listening && s.station.listeningTimer.isRunning then
    let s := { s with station := { s.station with state := .joined, listeningTimer := .stopped, fresh := true } }
    startPresenceTimer (makePresence false (raiseStation .joined s))
  else s

/-- The presence timer expires (R149). -/
def presenceExpired (s : State) : State :=
  if s.onTrunk && s.station.presenceTimer.isRunning then ordinaryPresence s else s

/-- LEAVE is taken in JOINED (R44, R72, R157): the station goes LEAVING and every RUNNING or WAITING channel goes FAILING
with LEFT. -/
def beginLeave (s : State) : State :=
  (List.finRange 4).foldl (fun s c => leaveChannel c s) { s with station := { s.station with state := .leaving } }

/-- The farewell is offered once the drain condition holds (R158). -/
def offerFarewell (s : State) : State :=
  if s.station.state = .leaving && !s.station.farewellOffered && s.drained then
    let s := makePresence true s
    { s with station := { s.station with presenceTimer := .stopped, farewellOffered := true } }
  else s

/-- JOIN is taken (R147). -/
def beginListening (s : State) : State :=
  { s with station := { s.station with state := .listening, listeningTimer := .running (2 * s.presenceInterval) } }

/-- A station reset (R162, R189): every block takes its reset values; the list store and the strap address are kept, the
result is the DONE of RESET, and the waiting commands are untouched. -/
def stationReset (s : State) : State :=
  { State.powerOn s.station.strap with
    listStore := s.listStore
    port := { Port.reset with result := .done }
    pending := s.pending }

end Sys2Proof.Machine
end

