-- ==== Sys2Proof/Machine/EventWriter.lean ====
section
/-! DEFINITION. The event writer and its ring (R179 to R188), and the layout of the event records (R193, R194). -/

namespace Sys2Proof.Machine

/-! ## The layout of the records (R193) -/

/-- The start source: 0x00 for HOST, 0x10 plus n for BOOKING n. -/
def StartSource.code : StartSource → Nat
  | .host => 0x00
  | .booking n => 0x10 + n.val

/-- The CH_HALTED error codes 1 to 19. -/
def HaltError.code : HaltError → Nat
  | .refused => 1
  | .noWindow => 2
  | .range => 3
  | .notReady => 4
  | .remoteFault => 5
  | .timeout => 6
  | .absent => 7
  | .peerLost => 8
  | .link => 9
  | .claimLost => 10
  | .uncertain => 11
  | .persistExhausted => 12
  | .chainShort => 13
  | .hostFault => 14
  | .badEntry => 15
  | .waitTimeout => 16
  | .bookingIdle => 17
  | .left => 18
  | .excluded => 19

/-- The loss reasons. -/
def LossReason.code : LossReason → Nat
  | .silent => 1
  | .leaving => 2
  | .restarted => 3

/-- The STATION records. -/
def StationEvent.code : StationEvent → Nat
  | .joined => 1
  | .joinFailed => 2
  | .left => 3
  | .excluded => 4

/-- The kind codes of the records. -/
def Event.kind : Event → Nat
  | .chDone _ _ => 0x01
  | .chStopped _ _ => 0x02
  | .chHalted _ _ _ _ _ _ => 0x03
  | .chMark _ _ _ => 0x04
  | .chTolerated _ _ _ _ => 0x05
  | .noticeSeen _ _ _ _ => 0x10
  | .startMissed _ _ => 0x11
  | .noticeSendFailed _ _ => 0x12
  | .windowHeld _ => 0x20
  | .windowFlipped _ _ => 0x21
  | .windowClosed _ => 0x22
  | .peerJoined _ _ => 0x30
  | .peerLost _ _ => 0x31
  | .station _ => 0x40
  | .eventsDropped _ => 0x41

/-- The resume segment of CH_HALTED, bits 31:24: 0-255 (R26); the manual states no value for one beyond it (log
entry 5). -/
def resumeByte (segment : Nat) : Nat :=
  if segment ≤ 255 then segment else (Config.unstatedResumeByte segment).toNat

/-- Word 1 of a record. -/
def Event.word1 : Event → Word
  | .chDone c src | .chStopped c src => place c.val 0 ||| place src.code 8
  | .chHalted c src entry _ _ _ => place c.val 0 ||| place src.code 8 ||| place entry 16
  | .chMark c entry _ | .chTolerated c entry _ _ => place c.val 0 ||| place entry 16
  | .noticeSeen b src code _ => place b.val 0 ||| place src 8 ||| place code 16
  | .startMissed b c => place b.val 0 ||| place c.val 8
  | .noticeSendFailed code destination => place code 0 ||| place destination 8
  | .windowHeld w | .windowClosed w => place w.val 0
  | .windowFlipped w half => place w.val 0 ||| place (if half = .a then 0 else 1) 8
  | .peerJoined address incarnation => place address 0 ||| place incarnation.toNat 8
  | .peerLost address reason => place address 0 ||| place reason.code 8
  | .station what => place what.code 0
  | .eventsDropped count => place count 0

/-- Word 2 of a record. -/
def Event.word2 : Event → Word
  | .chHalted _ _ _ error detail resume =>
    place ((error.map HaltError.code).getD 0) 0 ||| place (detail.station.getD 0) 8 ||| place (detail.status.getD 0) 16 |||
      place (resumeByte resume) 24
  | .chMark _ _ code => place code 0
  | .chTolerated _ _ count last => place count 0 ||| place ((last.map Result.code).getD 0) 16
  | .noticeSeen _ _ _ argument => place argument 0
  | _ => 0

/-- Word 3 of a record: the value of CH_HALTED, the previous value of a CH_TOLERATED whose last outcome is CLAIM LOST. -/
def Event.word3 : Event → Word
  | .chHalted _ _ _ _ detail _ => detail.value.getD 0
  | .chTolerated _ _ _ (some (.lost v)) => v
  | _ => 0

/-- The four words of a record written at a producer index (R184, R193). -/
def Event.words (e : Event) (index : BitVec 16) : List Word :=
  [place e.kind 0 ||| place index.toNat 16, e.word1, e.word2, e.word3]

/-! ## The sources (R183) -/

/-- The record of a source: 0-3 the channels, 4-19 the windows, 20 station control, 21 the droppable slots. -/
def State.sourceRecord (s : State) (i : Fin 22) : Option Event :=
  if h : i.val < 4 then (s.channel ⟨i.val, h⟩).heldSlot
  else if h : i.val - 4 < 16 then (s.window ⟨i.val - 4, h⟩).events.head?
  else if i.val = 20 then s.station.events.head?.map Event.station
  else s.writer.slots.head?

/-- The sources in the cyclic order that begins after the last served one (R183). -/
def rotation22 (last : Fin 22) : List (Fin 22) := (List.finRange 22).map fun i => last + 1 + i

/-- The first source that has a record (R183). -/
def State.nextSource (s : State) : Option (Fin 22) := (rotation22 s.writer.lastServed).find? fun i => (s.sourceRecord i).isSome

/-- The writer begins a record write (R183, R186): EVENTS_DROPPED when the drop count is above 0, else the record of the
next source, which becomes the last served. -/
def beginWrite (s : State) : State :=
  if !s.writerFree then s
  else if 0 < s.writer.dropCount then
    { s with writer := { s.writer with
        inFlight := some ⟨none, .eventsDropped s.writer.dropCount, s.writer.producer⟩ } }
  else
    match s.nextSource with
    | none => s
    | some i =>
      match s.sourceRecord i with
      | none => s
      | some e => { s with writer := { s.writer with inFlight := some ⟨some i, e, s.writer.producer⟩, lastServed := i } }

/-- The host byte address of the record of an index: ring base plus 16 times its slot (R179), modulo 2^32 (DESIGN CHOICE,
log entry 45). -/
def State.recordAddress (s : State) (index : BitVec 16) : Word :=
  s.station.config.ringBase + BitVec.ofNat 32 (16 * (index.toNat % s.ringSize))

/-! ## The end of a record write (R35, R184, R186, R187) -/

/-- A channel's held record has been placed: the slot is emptied and the channel acts on it (R35, R37). -/
def heldPlaced (c : Fin 4) (s : State) : State :=
  let ch := s.channel c
  let s := s.setChannel c { ch with heldSlot := none }
  match ch.heldSlot with
  | some (.chMark _ _ _) => if ch.state = .running then finishEntry c s else s
  | some (.chTolerated _ _ _ _) => if ch.state = .running then beginEntry (ch.entryIndex + 1) c s else s
  | some (.chDone _ _) | some (.chStopped _ _) => s.setChannel c Channel.reset
  | some (.chHalted _ _ _ _ _ _) => s.setChannel c { ch with heldSlot := none, state := .halted }
  | _ => s

/-- A window's oldest record has been placed: it leaves the list, and clears hold pending or flip pending (R124). -/
def windowPlaced (i : Fin 16) (s : State) : State :=
  let w := s.window i
  let w' := { w with events := w.events.tail }
  match w.events.head? with
  | some (.windowHeld _) => s.setWindow i { w' with holdPending := false }
  | some (.windowFlipped _ _) => s.setWindow i { w' with flipPending := false }
  | _ => s.setWindow i w'

/-- The record leaves its source (R184). -/
def sourcePlaced (i : Fin 22) (s : State) : State :=
  if h : i.val < 4 then heldPlaced ⟨i.val, h⟩ s
  else if h : i.val - 4 < 16 then windowPlaced ⟨i.val - 4, h⟩ s
  else if i.val = 20 then { s with station := { s.station with events := s.station.events.tail } }
  else { s with writer := { s.writer with slots := s.writer.slots.tail } }

/-- The count that an EVENTS_DROPPED record carries, and 0 of another (R186). -/
def Event.dropped : Event → Nat
  | .eventsDropped n => n
  | _ => 0

/-- A record write ends (R184, R186, R187): complete, the producer advances and the record leaves its source, or the count
carried is subtracted; with an error response, the event fault is set and nothing else changes. -/
def recordEnded (r : RecordWrite) (error : Bool) (s : State) : State :=
  if error then { s with writer := { s.writer with inFlight := none, eventFault := true } }
  else
    let s := { s with writer := { s.writer with inFlight := none, producer := s.writer.producer + 1 } }
    match r.source with
    | some i => sourcePlaced i s
    | none => { s with writer := { s.writer with dropCount := s.writer.dropCount - r.event.dropped } }

/-! ## The indices (R179, R180, R188) -/

/-- Both indices 0, the event fault and the ring error cleared (R179, R188). Whatever clears the fault so sets the
producer index to 0, and a record whose write failed is written again there and not at the index that it had (R187;
DEDUCED, log entry 43). -/
def resetRing (s : State) : State :=
  { s with writer := { s.writer with producer := 0, consumer := 0, eventFault := false, ringError := false } }

/-- EVENT_RING_RESET is taken (R188). A droppable record whose write ended in error is discarded with the other events in
the slots, not kept to be written after the reset as R187 and the end of R188 have it of failed records; a held one stays
with its owner (DESIGN CHOICE, log entry 47). -/
def eventRingReset (s : State) : State :=
  let n := s.writer.slots.length
  resetRing { s with
    writer := { s.writer with slots := [], dropCount := satAdd s.writer.dropCount n }
    counters := { s.counters with droppedEvents := satAdd s.counters.droppedEvents n } }

/-- The producer index that a consumer write is checked against: a record write in flight counts as placed (R180). -/
def State.checkedProducer (s : State) : BitVec 16 :=
  if s.writer.inFlight.isSome then s.writer.producer + 1 else s.writer.producer

/-- A consumer index is valid: the unconsumed count that would result is from 0 to the ring size (R180). -/
def State.consumerValid (s : State) (value : BitVec 16) : Bool := (s.checkedProducer - value).toNat ≤ s.ringSize

/-- A host write of the consumer index (R180, R194). -/
def writeConsumer (value : Word) (s : State) : State :=
  let index : BitVec 16 := value.extractLsb' 0 16
  if s.consumerValid index then { s with writer := { s.writer with consumer := index } }
  else { s with writer := { s.writer with ringError := true } }

end Sys2Proof.Machine
end

