-- ==== Sys2Proof/Machine/MemoryAccess.lean ====
section
/-! DEFINITION. The memory access unit: the arbiter, the bursts that its requesters present, and what a burst's response
does (R98 to R103). -/

namespace Sys2Proof.Machine

/-! ## What each requester presents (R98 to R101) -/

/-- The next burst of a read access. -/
def ReadAccess.burst (a : ReadAccess) (owner : BurstOwner) : Burst := ⟨owner, a.next, a.burstWords, none⟩

/-- The next burst of a write access. -/
def WriteAccess.burst (a : WriteAccess) (owner : BurstOwner) : Burst :=
  ⟨owner, a.next, a.burstWords, some (a.words.take a.burstWords)⟩

/-- The burst of a completion write (R94, R95). -/
def CompletionWrite.burst (w : CompletionWrite) (c : Fin 4) : Option Burst :=
  match w.stage with
  | .placing _ _ a => some (a.burst (.completion c))
  | .writing (a :: _) => some (a.burst (.completion c))
  | .writing [] => none

/-- The burst of a preparation (R92, R93). -/
def Preparation.burst (p : Preparation) (c : Fin 4) : Burst :=
  match p.stage with
  | .fetching _ a => a.burst (.preparation c)
  | .payload _ _ a _ => a.burst (.preparation c)

/-- The burst that a channel presents (R100): of its oldest completion write, before any of its preparation. A channel in
REPORTING, IDLE or HALTED presents none, and a WAITING one makes no access. -/
def State.channelBurst (s : State) (c : Fin 4) : Option Burst :=
  let ch := s.channel c
  if ch.state = .running || ch.state = .stopping || ch.state = .failing then
    match ch.writes, ch.preparation with
    | w :: _, _ => w.burst c
    | [], some p => some (p.burst c)
    | [], none => none
  else none

/-- The channel whose burst the engine presents: the next in rotation that has one (R100). -/
def State.engineChannel (s : State) : Option (Fin 4) :=
  (rotation4 s.memory.engineLast).find? fun c => (s.channelBurst c).isSome

/-- The burst of the executing work item (R101, R102): a CLAIM begins its locked pair with a read of one word. -/
def State.responderBurst (s : State) : Option Burst :=
  match s.responder.execution, s.responder.queue with
  | some e, item :: _ =>
    match e.stage with
    | .reading a => some (a.burst .responder)
    | .writing a => some (a.burst .responder)
    | .claimRead => some ⟨.responder, item.addr, 1, none⟩
    | .claimWrite _ => none
  | _, _ => none

/-- The burst of the event writer: the four words of the record in flight (R101, R184). -/
def State.writerBurst (s : State) : Option Burst :=
  s.writer.inFlight.map fun r => ⟨.writer, s.recordAddress r.index, 4, some (r.event.words r.index)⟩

/-- The burst that a requester presents (R99). -/
def State.requesterBurst (s : State) : Requester → Option Burst
  | .writer => s.writerBurst
  | .responder => s.responderBurst
  | .engine => s.engineChannel.bind s.channelBurst

/-! ## The grant (R99) -/

/-- The order after a requester has been served: it is moved to the lowest place (R99). -/
def BusOrder.serve (o : BusOrder) (r : Requester) : BusOrder :=
  if r = o.first then ⟨o.second, o.third, o.first⟩
  else if r = o.second then ⟨o.first, o.third, o.second⟩
  else o

/-- The requester that is granted: the highest that presents a burst (R99). -/
def State.grantee (s : State) : Option Requester :=
  [s.memory.order.first, s.memory.order.second, s.memory.order.third].find? fun r => (s.requesterBurst r).isSome

/-- A preparation's access has begun (R94). -/
def Preparation.begin (p : Preparation) : Preparation :=
  match p.stage with
  | .fetching request a => { p with stage := .fetching request { a with begun := true } }
  | .payload placement got a later => { p with stage := .payload placement got { a with begun := true } later }

/-- The access whose burst is granted has begun; the channel becomes the last served, a CLAIM's read holds the bus lock
(R94, R100, R102). -/
def markBegun (b : Burst) (s : State) : State :=
  match b.owner with
  | .writer => s
  | .responder =>
    match s.responder.execution with
    | some ⟨.claimRead, _⟩ => { s with memory := { s.memory with lock := true } }
    | _ => s
  | .preparation c =>
    let s := s.setChannel c { s.channel c with preparation := (s.channel c).preparation.map Preparation.begin }
    { s with memory := { s.memory with engineLast := c } }
  | .completion c =>
    let s := s.setChannel c { s.channel c with writes := match (s.channel c).writes with
      | w :: rest => { w with begun := true } :: rest
      | [] => [] }
    { s with memory := { s.memory with engineLast := c } }

/-- When the bus is free, the arbiter grants one burst (R99). -/
def grantBus (s : State) : State :=
  if s.memory.burst.isSome then s
  else
    match s.grantee with
    | none => s
    | some r =>
      match s.requesterBurst r with
      | none => s
      | some b =>
        markBegun b { s with memory := { s.memory with burst := some b, order := s.memory.order.serve r } }

/-! ## The response at the engine (R92 to R97) -/

/-- Replace what a channel is preparing. -/
def setPreparation (c : Fin 4) (p : Option Preparation) (s : State) : State :=
  s.setChannel c { s.channel c with preparation := p }

/-- The words of a fetched descriptor, as the walk takes them. -/
def ReadAccess.loadWalk (a : ReadAccess) (walk : Option Walk) : Walk :=
  Walk.load walk a.base (a.got.getD 0 0) (a.got.getD 1 0)

/-- A preparation's burst has ended (R92, R93, R97). The result of a preparation whose channel has left RUNNING is not
used (R39, R51). -/
def preparationResponse (c : Fin 4) (error : Bool) (words : List Word) (s : State) : State :=
  match (s.channel c).preparation with
  | none => s
  | some p =>
    match p.stage with
    | .fetching request a =>
      let a' := a.take words
      if error then hostFault c p.segment .descriptor a.base (setPreparation c none s)
      else if 0 < a'.left then setPreparation c (some { p with stage := .fetching request a' }) s
      else if p.dropped then setPreparation c none s
      else
        let s := s.setChannel c { s.channel c with walk := some (a'.loadWalk (s.channel c).walk) }
        walkPreparation c p.segment request s
    | .payload placement got a later =>
      let a' := a.take words
      let got' := got ++ a'.got
      if error then hostFault c p.segment .payload a.base (setPreparation c none s)
      else if 0 < a'.left then setPreparation c (some { p with stage := .payload placement got a' later }) s
      else if p.dropped then setPreparation c none s
      else
        match later with
        | [] => segmentPrepared c p.segment placement (s.setChannel c { s.channel c with issueBuffer := got' })
        | piece :: rest =>
          setPreparation c
            (some { p with stage := .payload placement got' (ReadAccess.start piece.addr piece.count) rest }) s

/-- The access that a completion write's fault names (R97). -/
def CompletionWrite.faultAccess (w : CompletionWrite) : FaultAccess := if w.record.isSome then .record else .data

/-- The completion write at the head has failed: it leaves the channel's writes, its tag is released all the same, and a
sweep's cursor stays at the peer whose record it was (R67, R87, R89). -/
def abandonWrite (c : Fin 4) (w : CompletionWrite) (s : State) : State :=
  let s := releaseOwned w.tag (popWrite c s)
  match w.record with
  | some record => moveCursor c record.station s
  | none => s

/-- A completion write ends with an error response: its segment is failed (R94, R97). -/
def writeFaulted (c : Fin 4) (w : CompletionWrite) (access : FaultAccess) (addr : Word) (s : State) : State :=
  hostFault c w.segment access addr (abandonWrite c w s)

/-- The walk goes on with the placement of a sweep record's data words (R95, R96). -/
def walkRecord (c : Fin 4) (w : CompletionWrite) (header : Word) (request : WalkRequest) (s : State) : State :=
  let ch := s.channel c
  match walkOn ch.captured.chainAddress ch.walk request with
  | (walk, request, answer) =>
    let s := s.setChannel c { ch with walk := walk }
    match answer with
    | .placed =>
      setWriteStage c w (.writing (match w.record with
        | some record => record.accesses header request.pieces
        | none => [])) s
    | .fetch d => setWriteStage c w (.placing header request (fetchAccess d)) s
    | .short p => chainShort c w.segment p (abandonWrite c w s)

/-- A completion write's burst has ended (R94, R95, R97). -/
def completionResponse (c : Fin 4) (error : Bool) (words : List Word) (s : State) : State :=
  match (s.channel c).writes with
  | [] => s
  | w :: _ =>
    match w.stage with
    | .placing header request a =>
      let a' := a.take words
      if error then writeFaulted c w .descriptor a.base s
      else if 0 < a'.left then setWriteStage c w (.placing header request a') s
      else
        let s := s.setChannel c { s.channel c with walk := some (a'.loadWalk (s.channel c).walk) }
        walkRecord c w header request s
    | .writing [] => writeDone c w (popWrite c s)
    | .writing (a :: rest) =>
      let a' := a.advance
      if error then writeFaulted c w w.faultAccess a.base s
      else if a'.words ≠ [] then setWriteStage c w (.writing (a' :: rest)) s
      else if rest ≠ [] then setWriteStage c w (.writing rest) s
      else writeDone c w (popWrite c s)

/-! ## The response at the responder (R101, R102, R113, R114) -/

/-- The execution goes on at another stage. -/
def setItemStage (e : Execution) (stage : ItemStage) (s : State) : State :=
  { s with responder := { s.responder with execution := some { e with stage := stage } } }

/-- The bus lock is released (R102). -/
def unlockBus (s : State) : State := { s with memory := { s.memory with lock := false } }

/-- The executing item's burst has ended (R101, R102, R113, R114). An equal CLAIM's write follows its read under the same
grant, with the lock held. -/
def responderResponse (error : Bool) (words : List Word) (s : State) : State :=
  match s.responder.execution, s.responder.queue with
  | some e, item :: _ =>
    match e.stage with
    | .reading a =>
      let a' := a.take words
      if error then completeItem item e .fault s
      else if 0 < a'.left then setItemStage e (.reading a') s
      else completeItem item e (.done a'.got) s
    | .writing a =>
      let a' := a.advance
      if error then completeItem item e .fault s
      else if a'.words ≠ [] then setItemStage e (.writing a') s
      else completeItem item e (.done []) s
    | .claimRead =>
      let value := words.headD 0
      if error then completeItem item e .fault (unlockBus s)
      else if value = item.payload.getD 0 0 then
        let s := setItemStage e (.claimWrite value) s
        { s with memory := { s.memory with burst := some ⟨.responder, item.addr, 1, some [item.payload.getD 1 0]⟩ } }
      else completeItem item e (.lost value) (unlockBus s)
    | .claimWrite previous =>
      if error then completeItem item e .fault (unlockBus s) else completeItem item e (.won previous) (unlockBus s)
  | _, _ => s

/-! ## The response -/

/-- The event writer's burst has ended (R184). -/
def writerResponse (error : Bool) (s : State) : State :=
  match s.writer.inFlight with
  | some r => recordEnded r error s
  | none => s

/-- A burst receives its response (R98): the bus is free, and its requester takes the result. A read burst of n words
takes the first n words. -/
def burstEnds (error : Bool) (data : Vector Word 16) (s : State) : State :=
  match s.memory.burst with
  | none => s
  | some b =>
    let words := if b.write.isSome then [] else data.toList.take b.count
    let s := { s with memory := { s.memory with burst := none } }
    match b.owner with
    | .writer => writerResponse error s
    | .responder => responderResponse error words s
    | .preparation c => preparationResponse c error words s
    | .completion c => completionResponse c error words s

end Sys2Proof.Machine
end

