-- ==== Sys2Proof/Machine/TrunkInterface.lean ====
section
/-! DEFINITION. The trunk interface: the transmit selector, contention, tries and echoes, and reception (R163 to R174). -/

namespace Sys2Proof.Machine

/-! ## The transmit selector (R166) -/

/-- A tag's request frame may be offered: QUEUED and not completing (R166). -/
def Tag.onOffer (t : Tag) : Bool := t.state = .queued && !t.completing

/-- The tags counting from the pointer upward, wrapping from 15 to 0 (R166). -/
def rotation16 (pointer : Fin 16) : List (Fin 16) := (List.finRange 16).map fun i => pointer + i

/-- A tag's request frame has made a try that failed, and its transmission has not ended (R166, R168). -/
def Tag.keepsTurn (t : Tag) : Bool := t.onOffer && decide (0 < t.tries)

/-- The tag that the request rotation chooses (R166): one whose try failed keeps its turn, ahead of the other QUEUED tags
(DEDUCED, log entry 35); else the first on offer, counting from the pointer, also where R13's order of issue would have
another segment of its WRITE go first (DEDUCED, log entry 34). -/
def State.rotatedTag (s : State) : Option (Fin 16) :=
  let order := rotation16 s.trunk.pointer
  (order.find? fun t => (s.tag t).keepsTurn).or (order.find? fun t => (s.tag t).onOffer)

/-- The frame that the selector chooses, with its bytes: the reply head, the pending presence, the notice head, or a
request when the yield flag is clear (R166, R167). -/
def State.selected (s : State) : Option (TryFrame × List Byte) :=
  match s.trunk.replies, s.station.pending, s.notices.queue with
  | r :: _, _, _ => some (.reply, s.replyFrame r.reply)
  | [], some p, _ => some (.presence p.fresh, s.presenceFrame p)
  | [], none, n :: _ => some (.notice n.destination ⟨s.ownAddress, n.code, n.argument⟩, s.noticeFrame n)
  | [], none, [] =>
    if s.trunk.yielding then none
    else s.rotatedTag.map fun t => (.request t, s.requestFrame t)

/-- The class of a frame (R164). -/
def TryFrame.class : TryFrame → Nat
  | .reply => 0
  | .presence _ => 1
  | .notice _ _ => 2
  | .request _ => 3

/-- The contention key: class in bits 7:6, source in bits 5:0 (R164, R190). -/
def State.contentionKey (s : State) (f : TryFrame) : Byte :=
  BitVec.ofNat 8 (64 * f.class) ||| s.station.strap.setWidth 8

/-! ## Contention (R165, R167, R168) -/

/-- A frame's try count rises, and a request's tag is on the line (R56, R168). -/
def countTry (f : TryFrame) (s : State) : State :=
  match f with
  | .reply =>
    { s with trunk := { s.trunk with replies := match s.trunk.replies with
        | r :: rest => { r with tries := r.tries + 1 } :: rest
        | [] => [] } }
  | .presence _ =>
    { s with station := { s.station with pending := s.station.pending.map fun p => { p with tries := p.tries + 1 } } }
  | .notice _ _ =>
    { s with notices := { s.notices with queue := match s.notices.queue with
        | n :: rest => { n with tries := n.tries + 1 } :: rest
        | [] => [] } }
  | .request t => s.setTag t { s.tag t with tries := (s.tag t).tries + 1, onLine := true }

/-- Whether a try is one of a request. -/
def TryFrame.isRequest : TryFrame → Bool
  | .request _ => true
  | _ => false

/-- A try begins (R56, R165, R167): the frame is on the line, and the yield flag is set for a request. -/
def beginTry (f : TryFrame) (bytes : List Byte) (s : State) : State :=
  let s := countTry f s
  { s with trunk := { s.trunk with
      line := some ⟨f, bytes, .live, false⟩
      yielding := s.trunk.yielding || f.isRequest } }

/-- The frame the station contends with in a slot: only in JOINED and LEAVING (R145, R165). -/
def State.offered (s : State) : Option (TryFrame × List Byte) := if s.onTrunk then s.selected else none

/-- A key wins against the lowest key of the other stations: no station holds a lower one (R165). -/
def keyWins (key : Byte) (rival : Option Byte) : Bool :=
  match rival with
  | some r => key ≤ r
  | none => true

/-- A contention slot (R165): the station wins and begins a try, or loses, or hears another win, or the slot is quiet. No
slot opens while the station's own try is on the line. -/
def contend (rival : Option Byte) (s : State) : State :=
  if s.trunk.line.isSome then s
  else
    match s.offered with
    | some (f, bytes) => if keyWins (s.contentionKey f) rival then beginTry f bytes s else s
    | none => if rival.isSome then s else { s with trunk := { s.trunk with yielding := false } }

/-! ## The end of a frame's transmission (R169) -/

/-- The request rotation's pointer moves past a tag (R166). -/
def passTag (t : Fin 16) (s : State) : State := { s with trunk := { s.trunk with pointer := t + 1 } }

/-- A request's echo is intact: the tag goes SENT and its deadline starts (R56). -/
def requestSent (t : Fin 16) (s : State) : State :=
  s.setTag t { s.tag t with state := .sent, timer := .running s.deadline }

/-- A frame of any kind is abandoned, and counted (R169). -/
def countAbandoned (s : State) : State :=
  { s with counters := { s.counters with abandonedFrames := satInc s.counters.abandonedFrames } }

/-- The head reply leaves the reply queue; its slot is freed (R116, R171). -/
def popReply (s : State) : State := { s with trunk := { s.trunk with replies := s.trunk.replies.tail } }

/-- The head notice leaves the queue, and its owner is told (R130). -/
def popNotice (complete : Bool) (s : State) : State :=
  match s.notices.queue with
  | n :: rest => reportNotice n complete { s with notices := { s.notices with queue := rest } }
  | [] => s

/-- The pending presence leaves at the end of its transmission (R150): the farewell's end returns the station to OFFLINE,
an echoed frame with the fresh flag clears fresh. -/
def endPresence (complete : Bool) (s : State) : State :=
  match s.station.pending with
  | some p =>
    let s := { s with station := { s.station with
        pending := none
        fresh := if complete && p.fresh then false else s.station.fresh } }
    if p.leaving then returnOffline .left s else s
  | none => s

/-- The owner of a frame is told of the end of its transmission (R169). -/
def endTransmission (f : TryFrame) (complete : Bool) (s : State) : State :=
  let s := if complete then s else countAbandoned s
  match f with
  | .request t =>
    let s := passTag t s
    if complete then requestSent t s else attemptOutcome t .link (s.setTag t { s.tag t with unanswered := true })
  | .reply => popReply s
  | .notice _ _ => popNotice complete s
  | .presence _ => endPresence complete s

/-- The try count of a frame in transmission (R168). -/
def State.triesOf (s : State) (f : TryFrame) : Nat :=
  match f with
  | .reply => (s.trunk.replies.head?.map QueuedReply.tries).getD 0
  | .presence _ => (s.station.pending.map Presence.tries).getD 0
  | .notice _ _ => (s.notices.queue.head?.map QueuedNotice.tries).getD 0
  | .request t => (s.tag t).tries

/-- The end of a try whose frame is still offered: complete, failed, or abandoned at the fourth failure (R168). -/
def endLiveTry (f : TryFrame) (complete : Bool) (s : State) : State :=
  if complete then endTransmission f true s
  else if 4 ≤ s.triesOf f then endTransmission f false s
  else s

/-- The end of a try whose frame has been withdrawn or flushed: only the rotation's pointer moves (R166, R170). -/
def endWithdrawnTry (f : TryFrame) (s : State) : State :=
  match f with
  | .request t => passTag t s
  | _ => s

/-- The end of a try of a presence that has been replaced: its echo acts on the fresh flag (R149, R170). -/
def endReplacedTry (f : TryFrame) (complete : Bool) (s : State) : State :=
  match f with
  | .presence true => if complete then { s with station := { s.station with fresh := false } } else s
  | _ => s

/-- The end of a try, by what has become of its frame (R168, R170). -/
def endTry (t : Try) (complete : Bool) (s : State) : State :=
  match t.fate with
  | .live => endLiveTry t.frame complete s
  | .withdrawn => endWithdrawnTry t.frame s
  | .replaced => endReplacedTry t.frame complete s

/-- The notice that a complete echo brings to the station's own notice unit (R130, R133, R172): a frame still offered
whose destination is 0 or the own address. -/
def State.ownNotice (s : State) (t : Try) : Option NoticeArrival :=
  match t.frame, t.fate with
  | .notice destination arrival, .live =>
    if destination = 0 || destination = s.ownAddress then some arrival else none
  | _, _ => none

/-- A complete echo of an own notice waits to be evaluated, unless it has been evaluated already (R21, R130). -/
def awaitHearing (t : Try) (complete : Bool) (s : State) : State :=
  match s.ownNotice t with
  | some n =>
    if complete && !t.heard then
      { s with notices := { s.notices with ownEchoes := s.notices.ownEchoes ++ [n] } }
    else s
  | none => s

/-- The echo is complete: every byte equal to the bytes sent, whose check is good (R168). -/
def Try.echoComplete (t : Try) (echo : List Byte) : Bool := t.heard || echo = t.bytes

/-- The echo is an address conflict: its check good, its bytes not those sent, its source the own address (R168, R173). -/
def State.echoConflicts (s : State) (t : Try) (echo : List Byte) : Bool :=
  !t.echoComplete echo && checkGood echo && sourceOf echo = s.ownAddress

/-- The end of the station's transmission (R168): the try is judged, its end acted on, and a conflict handed to station
control. -/
def tryEnds (echo : List Byte) (s : State) : State :=
  match s.trunk.line with
  | none => s
  | some t =>
    let complete := t.echoComplete echo
    let conflict := s.echoConflicts t echo
    let s := { s with trunk := { s.trunk with line := none } }
    let s := endTry t complete (awaitHearing t complete s)
    if conflict then addressConflict s else s

/-- The complete echo of an own notice is evaluated (R133): the oldest that waits, or the one on the line, before its
report (R21). -/
def hearOwnNotice (echo : List Byte) (s : State) : State :=
  match s.notices.ownEchoes with
  | n :: rest => noticeArrival n { s with notices := { s.notices with ownEchoes := rest } }
  | [] =>
    match s.trunk.line with
    | none => s
    | some t =>
      match s.ownNotice t with
      | none => s
      | some n =>
        if !t.heard && echo = t.bytes then
          noticeArrival n { s with trunk := { s.trunk with line := some { t with heard := true } } }
        else s

/-! ## Reception (R172, R173) -/

/-- A frame that has passed the receive checks and is not the station's own is routed by its kind and destination (R172).
A destination above 40 is another address, even where an invalid strap reads so (R142, R191; log entry 42). -/
def routeFrame (bytes : List Byte) (s : State) : State :=
  let own := destinationOf bytes = s.ownAddress ∧ destinationOf bytes ≤ 40
  match kindOf bytes with
  | some .request => if own then requestArrival (requestOf bytes) s else s
  | some .reply => if own then replyArrival (replyOf bytes) s else s
  | some .notice => if own ∨ destinationOf bytes = 0 then noticeArrival (noticeOf bytes) s else s
  | some .presence => presenceArrival (presenceOf bytes) s
  | none => s

/-- A frame that fails the receive checks is dropped and counted (R172). -/
def countCheckError (s : State) : State :=
  { s with counters := { s.counters with checkErrors := satInc s.counters.checkErrors } }

/-- A frame received while the station is not transmitting (R172, R173). One sent at another rate than the station's is a
check error, and so is one that was in reception when CONFIGURE changed the station's rate (R163; log entry 24). Every
other frame whose check is good restarts the silence timer of its source (R154), also one that fails another of the
receive checks and is dropped and counted; none does that is heard while the station sends (DEDUCED, log entry 44). -/
def receive (frame : Reception) (s : State) : State :=
  if s.trunk.line.isSome then s
  else if frame.rate ≠ s.station.config.rate || frame.rateChanged || !checkGood frame.bytes then countCheckError s
  else if !receiveChecks frame.bytes then countCheckError (restartSilence (sourceOf frame.bytes) s)
  else if sourceOf frame.bytes = s.ownAddress then addressConflict s
  else routeFrame frame.bytes (restartSilence (sourceOf frame.bytes) s)

end Sys2Proof.Machine
end

