-- ==== Sys2Proof/Machine/HostPort.lean ====
section
/-! DEFINITION. The host port: the effect of each host command on the blocks that own it, the command unit, and the host's
register writes (R2, R175 to R178, R194, R195). -/

namespace Sys2Proof.Machine

/-- What a command does: its result code and the state it leaves. -/
abbrev CommandEffect := CommandResult × State

/-! ## The owning rules of the commands, given the copied arguments -/

/-- CONFIGURE, when it is taken (R144, R179). -/
def takeConfigure (a : Arguments) (s : State) : CommandEffect :=
  match a.configuration with
  | none => (.badArg, s)
  | some config =>
    if s.station.state = .offline then (.done, resetRing { s with station := { s.station with config := config } })
    else (.badState, s)

/-- JOIN (R147). -/
def takeJoin (s : State) : CommandEffect :=
  if s.station.state ≠ .offline || !Instr.isStation s.ownAddress || !s.station.config.ringConfigured then (.badState, s)
  else if s.station.events ≠ [] then (.busy, s)
  else (.accepted, beginListening s)

/-- LEAVE (R148, R156, R157, R161). -/
def takeLeave (s : State) : CommandEffect :=
  match s.station.state with
  | .offline => (.badState, s)
  | .listening => (.done, returnOffline .left s)
  | .joined => (.accepted, beginLeave s)
  | .leaving => (.busy, s)
  | .excluded => (.done, returnOffline .left s)

/-- START (R28). -/
def takeStart (a : Arguments) (s : State) : CommandEffect :=
  match a.channel with
  | none => (.badArg, s)
  | some c =>
    if 1023 < a.startEntry then (.badArg, s)
    else if s.station.state ≠ .joined then (.badState, s)
    else
      match (s.channel c).state with
      | .idle | .halted => (.done, startChannel .host a.startEntry c s)
      | _ => (.busy, s)

/-- STOP (R38). A HALTED channel goes IDLE with its halt context discarded. -/
def takeStop (a : Arguments) (s : State) : CommandEffect :=
  match a.channel with
  | none => (.badArg, s)
  | some c =>
    match (s.channel c).state with
    | .idle => (.badState, s)
    | .running | .waiting => (.accepted, stopChannel c s)
    | .stopping | .failing | .reporting => (.busy, s)
    | .halted => (.done, s.setChannel c Channel.reset)

/-- RESUME (R30). -/
def takeResume (a : Arguments) (s : State) : CommandEffect :=
  match a.channel with
  | none => (.badArg, s)
  | some c =>
    if s.station.state ≠ .joined then (.badState, s)
    else
      match (s.channel c).state with
      | .halted => (.done, resumeChannel c s)
      | .idle => (.badState, s)
      | _ => (.busy, s)

/-- WINDOW_SET (R119, R151). -/
def takeWindowSet (a : Arguments) (s : State) : CommandEffect :=
  match a.windowSet with
  | none => (.badArg, s)
  | some (i, access) =>
    let w := s.window i
    if w.state ≠ .closed then (.badState, s)
    else if w.events ≠ [] then (.busy, s)
    else (.done, maskChanged (s.setWindow i (w.define access a)))

/-- HOLD (R120, R124). -/
def takeHold (a : Arguments) (s : State) : CommandEffect :=
  match a.window with
  | none => (.badArg, s)
  | some i =>
    let w := s.window i
    if w.state = .opened then (.accepted, testWindow i (s.setWindow i { w with state := .held, holdPending := true }))
    else (.badState, s)

/-- RELEASE (R121). -/
def takeRelease (a : Arguments) (s : State) : CommandEffect :=
  match a.window with
  | none => (.badArg, s)
  | some i =>
    let w := s.window i
    if w.state ≠ .held then (.badState, s)
    else if w.holdPending then (.busy, s)
    else (.done, s.setWindow i { w with state := .opened })

/-- FLIP (R122, R124). -/
def takeFlip (a : Arguments) (s : State) : CommandEffect :=
  match a.window with
  | none => (.badArg, s)
  | some i =>
    let w := s.window i
    if !w.paired || !w.advertised then (.badState, s)
    else if w.flipPending then (.busy, s)
    else (.accepted, testWindow i (s.setWindow i { w with published := w.published.other, flipPending := true }))

/-- CLOSE (R123, R124, R151). -/
def takeClose (a : Arguments) (s : State) : CommandEffect :=
  match a.window with
  | none => (.badArg, s)
  | some i =>
    let w := s.window i
    match w.state with
    | .opened | .held => (.accepted, testWindow i (maskChanged (s.setWindow i { w with state := .closing })))
    | .closing => (.busy, s)
    | .closed => (.badState, s)

/-- BOOK (R139). -/
def takeBook (a : Arguments) (s : State) : CommandEffect :=
  match a.book with
  | none => (.badArg, s)
  | some (b, once) => if s.hasWaiter b then (.busy, s) else (.done, s.setBooking b (Booking.written a once))

/-- A booking made FREE by UNBOOK (R140). -/
def Booking.remove (b : Booking) : Booking := { b with state := .free, matchCount := 0, latch := false }

/-- UNBOOK (R140): the values returned are those that stand at the command. -/
def takeUnbook (a : Arguments) (s : State) : CommandEffect :=
  match a.booking, a.remove with
  | some b, some remove =>
    let returned := { s with port := { s.port with arguments := s.port.arguments.set 1 (s.bookingWord b) } }
    if !remove then (.done, returned)
    else if s.hasWaiter b then (.busy, returned)
    else (.done, returned.setBooking b (s.booking b).remove)
  | _, _ => (.badArg, s)

/-- NOTICE (R131). -/
def takeNotice (a : Arguments) (s : State) : CommandEffect :=
  if 40 < a.destination || a.noticeCode = 0 then (.badArg, s)
  else if s.station.state ≠ .joined then (.badState, s)
  else if 4 ≤ s.notices.queue.length then (.busy, s)
  else (.done, placeNotice ⟨a.destination, a.noticeCode, a.noticeArgument, .host, 0⟩ s)

/-- COUNTERS_CLEAR (R178). -/
def takeCountersClear (s : State) : CommandEffect := (.done, { s with counters := Counters.reset })

/-- EVENT_RING_RESET, when it is taken (R188). -/
def takeEventRingReset (s : State) : CommandEffect := (.done, eventRingReset s)

/-! ## The command unit (R176, R177) -/

/-- A command ends: its result code is set and the executing flag is clear (R176). -/
def endCommand (r : CommandEffect) : State :=
  { r.2 with port := { r.2.port with result := r.1, executing := none } }

/-- A write of a command's code while a command executes is ignored and sets the result code to BUSY (R176). -/
def refuseBusy (s : State) : State := { s with port := { s.port with result := .busy } }

/-- A command that its owning block takes at the event of its handing over (R176). -/
def issue (effect : Arguments → State → CommandEffect) (s : State) : State :=
  if s.port.executing.isSome then refuseBusy s else endCommand (effect s.port.arguments s)

/-- A command waits for the record write in flight (R176). The result code keeps its value until the command ends. -/
def waitForWrite (w : WaitingCommand) (s : State) : State := { s with port := { s.port with executing := some w } }

/-- CONFIGURE is issued: its arguments are checked at once, and it waits while a record write is in flight (R176, R177;
log entry 12). -/
def issueConfigure (s : State) : State :=
  if s.port.executing.isSome then refuseBusy s
  else if (Arguments.configuration s.port.arguments).isSome && s.writer.inFlight.isSome then
    waitForWrite (.configure s.port.arguments) s
  else endCommand (takeConfigure s.port.arguments s)

/-- EVENT_RING_RESET is issued: it waits while a record write is in flight (R176, R188). -/
def issueRingReset (s : State) : State :=
  if s.port.executing.isSome then refuseBusy s
  else if s.writer.inFlight.isSome then waitForWrite .eventRingReset s
  else endCommand (takeEventRingReset s)

/-- A waiting command is taken once the record write has ended (R176, R179, R188). -/
def takeWaiting (s : State) : State :=
  if s.writer.inFlight.isSome then s
  else
    match s.port.executing with
    | none => s
    | some (.configure a) => endCommand (takeConfigure a s)
    | some .eventRingReset => endCommand (takeEventRingReset s)

/-- A code that names no command gives BAD_ARG and changes nothing (R177). -/
def unknownCode (s : State) : State := issue (fun _ s => (.badArg, s)) s

/-- A host write of the command register: bits 7:0 are the code (R176, R194, R195). -/
def writeCommand (value : Word) (s : State) : State :=
  match Instr.commandCode value with
  | 0x01 => issueConfigure s
  | 0x02 => issue (fun _ => takeJoin) s
  | 0x03 => issue (fun _ => takeLeave) s
  | 0x04 => stationReset s
  | 0x05 => issue takeStart s
  | 0x06 => issue takeStop s
  | 0x07 => issue takeResume s
  | 0x08 => issue takeWindowSet s
  | 0x09 => issue takeHold s
  | 0x0A => issue takeRelease s
  | 0x0B => issue takeFlip s
  | 0x0C => issue takeClose s
  | 0x0D => issue takeBook s
  | 0x0E => issue takeUnbook s
  | 0x0F => issue takeNotice s
  | 0x10 => issueRingReset s
  | 0x11 => issue (fun _ => takeCountersClear) s
  | _ => unknownCode s

/-! ## Register writes (R2, R175, R180, R181, R194) -/

/-- The list address takes bits 11:0, the value modulo 4096 (R2, R194). -/
def writeListAddress (value : Word) (s : State) : State :=
  { s with port := { s.port with listAddress := value.setWidth 12 } }

/-- The list address advances by one, wrapping from 4095 to 0 (R2). -/
def advanceListAddress (s : State) : State :=
  { s with port := { s.port with listAddress := s.port.listAddress + 1 } }

/-- A word is stored at the list address, which advances (R2). -/
def writeListData (value : Word) (s : State) : State :=
  advanceListAddress { s with listStore := writeStore s.listStore s.port.listAddress.toNat value }

/-- The word at the list address is returned, and the address advances (R2). -/
def readListData (s : State) : State :=
  advanceListAddress
    { s with port := { s.port with readData := readStore s.listStore s.port.listAddress.toNat } }

/-- A write of status with the ring error field set clears the ring error; else it changes nothing (R175, R195). -/
def writeStatus (value : Word) (s : State) : State :=
  if bit value 17 then { s with writer := { s.writer with ringError := false } } else s

/-- The enables RECORDS and FAULT are bits 0 and 1 (R181, R195). -/
def writeEnables (value : Word) (s : State) : State :=
  { s with port := { s.port with enableRecords := bit value 0, enableFault := bit value 1 } }

/-- An argument register stores the value (R175). -/
def writeArgument (i : Fin 4) (value : Word) (s : State) : State :=
  { s with port := { s.port with arguments := s.port.arguments.set i value } }

/-- A host write of a word of the register window: each register as it takes one, a read-only register not at all (R175,
R194, R195). -/
def writeRegister (r : Fin 16) (value : Word) (s : State) : State :=
  match r.val with
  | 0 => writeStatus value s
  | 1 => writeCommand value s
  | 3 => writeArgument 0 value s
  | 4 => writeArgument 1 value s
  | 5 => writeArgument 2 value s
  | 6 => writeArgument 3 value s
  | 7 => writeListAddress value s
  | 8 => writeListData value s
  | 10 => writeConsumer value s
  | 11 => writeEnables value s
  | _ => s

end Sys2Proof.Machine
end

