-- ==== Sys2Proof/Machine/CommandMeanings.lean ====
section
/-! DEFINITION. The meanings of the reset and of the host commands, one definition for each row: a host write of the
command register with the command's code (R176, R195). -/

namespace Sys2Proof.Machine

/-- POWER_ON_RESET: every block takes its reset values, the list store is zero, and the strap pins are sampled (R1, R142,
R189). The commands that wait are outside the part. -/
def execPowerOnReset (straps : BitVec 6) (s : State) : Host.Outcome State Fault Refusal :=
  .next { State.powerOn straps with pending := s.pending }

/-- CONFIGURE (R144, R176). -/
def execConfigure (s : State) : Host.Outcome State Fault Refusal := .next (issueConfigure s)

/-- JOIN (R147). -/
def execJoin (s : State) : Host.Outcome State Fault Refusal := .next (issue (fun _ => takeJoin) s)

/-- LEAVE (R148, R156, R157, R161). -/
def execLeave (s : State) : Host.Outcome State Fault Refusal := .next (issue (fun _ => takeLeave) s)

/-- RESET: a station reset, taken even while a command executes (R162, R176). -/
def execReset (s : State) : Host.Outcome State Fault Refusal := .next (stationReset s)

/-- START (R28). -/
def execStart (s : State) : Host.Outcome State Fault Refusal := .next (issue takeStart s)

/-- STOP (R38). -/
def execStop (s : State) : Host.Outcome State Fault Refusal := .next (issue takeStop s)

/-- RESUME (R30). -/
def execResume (s : State) : Host.Outcome State Fault Refusal := .next (issue takeResume s)

/-- WINDOW_SET (R119). -/
def execWindowSet (s : State) : Host.Outcome State Fault Refusal := .next (issue takeWindowSet s)

/-- HOLD (R120). -/
def execHold (s : State) : Host.Outcome State Fault Refusal := .next (issue takeHold s)

/-- RELEASE (R121). -/
def execRelease (s : State) : Host.Outcome State Fault Refusal := .next (issue takeRelease s)

/-- FLIP (R122). -/
def execFlip (s : State) : Host.Outcome State Fault Refusal := .next (issue takeFlip s)

/-- CLOSE (R123). -/
def execClose (s : State) : Host.Outcome State Fault Refusal := .next (issue takeClose s)

/-- BOOK (R139). -/
def execBook (s : State) : Host.Outcome State Fault Refusal := .next (issue takeBook s)

/-- UNBOOK (R140). -/
def execUnbook (s : State) : Host.Outcome State Fault Refusal := .next (issue takeUnbook s)

/-- NOTICE (R131). -/
def execNotice (s : State) : Host.Outcome State Fault Refusal := .next (issue takeNotice s)

/-- EVENT_RING_RESET (R188). -/
def execEventRingReset (s : State) : Host.Outcome State Fault Refusal := .next (issueRingReset s)

/-- COUNTERS_CLEAR (R178). -/
def execCountersClear (s : State) : Host.Outcome State Fault Refusal := .next (issue (fun _ => takeCountersClear) s)

/-- PENDING_COMMAND_TAKEN: the command that waited for a record write is taken once that write has ended (R176). -/
def execPendingCommandTaken (s : State) : Host.Outcome State Fault Refusal := .next (takeWaiting s)

end Sys2Proof.Machine
end

