-- ==== Sys2Proof/Machine/EngineMeanings.lean ====
section
/-! DEFINITION. The meanings of the steps that the part takes by itself, one definition for each row. -/

namespace Sys2Proof.Machine

/-- PREPARE_SEGMENT (R51). -/
def execPrepareSegment (channel : Fin 4) (s : State) : Host.Outcome State Fault Refusal :=
  .next (prepareSegment channel s)

/-- TAG_GRANT: the channels are looked at in the cyclic order after the one last served (R53). -/
def execTagGrant (s : State) : Host.Outcome State Fault Refusal := .next (grantFrom (rotation4 s.engine.lastServed) s)

/-- NOTICE_PLACE_GRANT (R129). -/
def execNoticePlaceGrant (s : State) : Host.Outcome State Fault Refusal := .next (grantNoticePlace s)

/-- BUS_GRANT (R99). -/
def execBusGrant (s : State) : Host.Outcome State Fault Refusal := .next (grantBus s)

/-- BURST_RESPONSE (R98). -/
def execBurstResponse (error : Bool) (data : Vector Word 16) (s : State) : Host.Outcome State Fault Refusal :=
  .next (burstEnds error data s)

/-- EVENT_WRITE_BEGIN (R183). -/
def execEventWriteBegin (s : State) : Host.Outcome State Fault Refusal := .next (beginWrite s)

/-- CHANNEL_ENTER_REPORTING (R36). -/
def execChannelEnterReporting (channel : Fin 4) (s : State) : Host.Outcome State Fault Refusal :=
  .next (reportEnd channel s)

/-- WINDOW_COMPLETION (R124). -/
def execWindowCompletion (window : Fin 16) (s : State) : Host.Outcome State Fault Refusal :=
  .next (testWindow window s)

/-- FAREWELL_OFFER (R158). -/
def execFarewellOffer (s : State) : Host.Outcome State Fault Refusal := .next (offerFarewell s)

end Sys2Proof.Machine
end

