-- ==== Sys2Proof/Machine/RegisterMeanings.lean ====
section
/-! DEFINITION. The meanings of the host's accesses to the register window, one definition for each row (R175, R194,
R195). -/

namespace Sys2Proof.Machine

/-- LIST_ADDRESS_WRITE (R2, R194). -/
def execListAddressWrite (value : Word) (s : State) : Host.Outcome State Fault Refusal :=
  .next (writeListAddress value s)

/-- LIST_DATA_READ (R2). -/
def execListDataRead (s : State) : Host.Outcome State Fault Refusal := .next (readListData s)

/-- LIST_DATA_WRITE (R2). -/
def execListDataWrite (value : Word) (s : State) : Host.Outcome State Fault Refusal := .next (writeListData value s)

/-- CONSUMER_INDEX_WRITE (R180). -/
def execConsumerIndexWrite (value : Word) (s : State) : Host.Outcome State Fault Refusal :=
  .next (writeConsumer value s)

/-- STATUS_WRITE (R175). -/
def execStatusWrite (value : Word) (s : State) : Host.Outcome State Fault Refusal := .next (writeStatus value s)

/-- INTERRUPT_ENABLE_WRITE (R181). -/
def execInterruptEnableWrite (value : Word) (s : State) : Host.Outcome State Fault Refusal :=
  .next (writeEnables value s)

/-- REGISTER_WRITE: an argument register stores the value, a read-only register changes nothing (R175, R194). -/
def execRegisterWrite (register : Fin 16) (value : Word) (s : State) : Host.Outcome State Fault Refusal :=
  .next (writeRegister register value s)

/-- COMMAND_WRITE_WHILE_EXECUTING: while a command executes, a code other than RESET's is ignored and gives BUSY (R176).
A write while none executes, and a write of the code of RESET, is the write of its code. -/
def execCommandWriteWhileExecuting (value : Word) (s : State) : Host.Outcome State Fault Refusal :=
  .next (writeCommand value s)

/-- UNKNOWN_COMMAND_CODE: a code that names no command gives BAD_ARG, or BUSY while a command executes (R176, R177). A
write of a code that names a command is the write of that code. -/
def execUnknownCommandCode (value : Word) (s : State) : Host.Outcome State Fault Refusal :=
  .next (writeCommand value s)

end Sys2Proof.Machine
end

