-- ==== Sys2Proof/Machine/TimerMeanings.lean ====
section
/-! DEFINITION. The meanings of the expiries of the timers, one definition for each row. The expiry of a timer that does
not run changes nothing (log entry 3). -/

namespace Sys2Proof.Machine

/-- DEADLINE_EXPIRY (R62). -/
def execDeadlineExpiry (tag : Fin 16) (s : State) : Host.Outcome State Fault Refusal := .next (deadlineExpired tag s)

/-- RETRY_EXPIRY (R64). -/
def execRetryExpiry (tag : Fin 16) (s : State) : Host.Outcome State Fault Refusal := .next (retryExpired tag s)

/-- COOLING_EXPIRY (R69). -/
def execCoolingExpiry (tag : Fin 16) (s : State) : Host.Outcome State Fault Refusal := .next (coolingExpired tag s)

/-- WAIT_TIMER_EXPIRY (R34). -/
def execWaitTimerExpiry (channel : Fin 4) (s : State) : Host.Outcome State Fault Refusal :=
  .next (waitExpired channel s)

/-- LISTENING_TIMER_EXPIRY (R148). -/
def execListeningTimerExpiry (s : State) : Host.Outcome State Fault Refusal := .next (listeningExpired s)

/-- PRESENCE_TIMER_EXPIRY (R149). -/
def execPresenceTimerExpiry (s : State) : Host.Outcome State Fault Refusal := .next (presenceExpired s)

/-- SILENCE_TIMER_EXPIRY (R154). -/
def execSilenceTimerExpiry (station : Nat) (s : State) : Host.Outcome State Fault Refusal :=
  .next (silenceExpired station s)

end Sys2Proof.Machine
end

