-- ==== Sys2Proof/Machine/TrunkMeanings.lean ====
section
/-! DEFINITION. The meanings of the events of the trunk, one definition for each row (R133, R165, R168, R172). -/

namespace Sys2Proof.Machine

/-- CONTENTION_SLOT (R165). -/
def execContentionSlot (rival : Option Byte) (s : State) : Host.Outcome State Fault Refusal := .next (contend rival s)

/-- TRY_END (R168). -/
def execTryEnd (echo : List Byte) (s : State) : Host.Outcome State Fault Refusal := .next (tryEnds echo s)

/-- OWN_NOTICE_HEARD (R133). -/
def execOwnNoticeHeard (echo : List Byte) (s : State) : Host.Outcome State Fault Refusal :=
  .next (hearOwnNotice echo s)

/-- RECEIVE_FRAME (R172). -/
def execReceiveFrame (frame : Reception) (s : State) : Host.Outcome State Fault Refusal := .next (receive frame s)

end Sys2Proof.Machine
end

