-- ==== Sys2Proof/Machine/Dispatch.lean ====
section
/-! DEFINITION. Each command and its meaning, one arm per row of the opcode table. -/

namespace Sys2Proof.Machine

def exec (i : Instr) (s : State) : Host.Outcome State Fault Refusal :=
  match i with
  | .powerOnReset straps => Sys2Proof.Machine.execPowerOnReset straps s
  | .configure => Sys2Proof.Machine.execConfigure s
  | .join => Sys2Proof.Machine.execJoin s
  | .leave => Sys2Proof.Machine.execLeave s
  | .reset => Sys2Proof.Machine.execReset s
  | .start => Sys2Proof.Machine.execStart s
  | .stop => Sys2Proof.Machine.execStop s
  | .resume => Sys2Proof.Machine.execResume s
  | .windowSet => Sys2Proof.Machine.execWindowSet s
  | .hold => Sys2Proof.Machine.execHold s
  | .release => Sys2Proof.Machine.execRelease s
  | .flip => Sys2Proof.Machine.execFlip s
  | .close => Sys2Proof.Machine.execClose s
  | .book => Sys2Proof.Machine.execBook s
  | .unbook => Sys2Proof.Machine.execUnbook s
  | .notice => Sys2Proof.Machine.execNotice s
  | .eventRingReset => Sys2Proof.Machine.execEventRingReset s
  | .countersClear => Sys2Proof.Machine.execCountersClear s
  | .pendingCommandTaken => Sys2Proof.Machine.execPendingCommandTaken s
  | .listAddressWrite value => Sys2Proof.Machine.execListAddressWrite value s
  | .listDataRead => Sys2Proof.Machine.execListDataRead s
  | .listDataWrite value => Sys2Proof.Machine.execListDataWrite value s
  | .consumerIndexWrite value => Sys2Proof.Machine.execConsumerIndexWrite value s
  | .statusWrite value => Sys2Proof.Machine.execStatusWrite value s
  | .interruptEnableWrite value => Sys2Proof.Machine.execInterruptEnableWrite value s
  | .registerWrite register value => Sys2Proof.Machine.execRegisterWrite register value s
  | .commandWriteWhileExecuting value => Sys2Proof.Machine.execCommandWriteWhileExecuting value s
  | .unknownCommandCode value => Sys2Proof.Machine.execUnknownCommandCode value s
  | .contentionSlot rival => Sys2Proof.Machine.execContentionSlot rival s
  | .tryEnd echo => Sys2Proof.Machine.execTryEnd echo s
  | .ownNoticeHeard echo => Sys2Proof.Machine.execOwnNoticeHeard echo s
  | .receiveFrame frame => Sys2Proof.Machine.execReceiveFrame frame s
  | .deadlineExpiry tag => Sys2Proof.Machine.execDeadlineExpiry tag s
  | .retryExpiry tag => Sys2Proof.Machine.execRetryExpiry tag s
  | .coolingExpiry tag => Sys2Proof.Machine.execCoolingExpiry tag s
  | .waitTimerExpiry channel => Sys2Proof.Machine.execWaitTimerExpiry channel s
  | .listeningTimerExpiry => Sys2Proof.Machine.execListeningTimerExpiry s
  | .presenceTimerExpiry => Sys2Proof.Machine.execPresenceTimerExpiry s
  | .silenceTimerExpiry station => Sys2Proof.Machine.execSilenceTimerExpiry station s
  | .prepareSegment channel => Sys2Proof.Machine.execPrepareSegment channel s
  | .tagGrant => Sys2Proof.Machine.execTagGrant s
  | .noticePlaceGrant => Sys2Proof.Machine.execNoticePlaceGrant s
  | .busGrant => Sys2Proof.Machine.execBusGrant s
  | .burstResponse error data => Sys2Proof.Machine.execBurstResponse error data s
  | .eventWriteBegin => Sys2Proof.Machine.execEventWriteBegin s
  | .channelEnterReporting channel => Sys2Proof.Machine.execChannelEnterReporting channel s
  | .windowCompletion window => Sys2Proof.Machine.execWindowCompletion window s
  | .farewellOffer => Sys2Proof.Machine.execFarewellOffer s

end Sys2Proof.Machine
end

