-- ==== Sys2Proof/Safety.lean ====
section
/-! DEFINITION. What counts as a sound state and a safe step, in the terms the statements use: the bounds and forms that
the spec gives the machine's stores, queues, ring, counters and roster. -/

namespace Sys2Proof.Machine

/-- The step goes on: it ends in no fault and no refusal. -/
def Continues (o : Host.Outcome State Fault Refusal) : Prop := ∃ t, o = .next t

/-- The list store is in its one form, with every address in the 4096 words of R1 and R2. -/
def State.StoreSound (s : State) : Prop := storeWf s.listStore = true

/-- The places of the queues hold no more than they can: 4 notices (R128), 4 droppable events (R182), 4 immediate and 8
reserved reply slots (R110, R112, R171). -/
def State.QueuesSound (s : State) : Prop :=
  s.notices.queue.length ≤ 4 ∧ s.writer.slots.length ≤ 4 ∧ s.immediateTaken ≤ 4 ∧ s.reservedTaken ≤ 8

/-- The unconsumed records, one in flight counted as placed, fit the ring; or the host has released that one record before
its write ended, so that the consumer index is one ahead of the producer index (R179, R180, R185; log entry 32). -/
def State.RingSound (s : State) : Prop :=
  (s.checkedProducer - s.writer.consumer).toNat ≤ s.ringSize ∨ s.writer.consumer = s.writer.producer + 1

/-- The counters, the drop count and the match counts stay at 65535 once there (R138, R178, R186). -/
def State.CountersSound (s : State) : Prop :=
  s.counters.checkErrors ≤ 65535 ∧ s.counters.staleReplies ≤ 65535 ∧ s.counters.droppedRequests ≤ 65535 ∧
    s.counters.abandonedFrames ≤ 65535 ∧ s.counters.droppedEvents ≤ 65535 ∧ s.writer.dropCount ≤ 65535 ∧
    ∀ b, (s.booking b).matchCount ≤ 65535

/-- The own address is never PRESENT in the roster, in OFFLINE and EXCLUDED no peer is (R152, R160), and a farewell is
pending only in LEAVING (R158). -/
def State.StationSound (s : State) : Prop :=
  (∀ i, (s.peer i).present = true → i.val + 1 ≠ s.ownAddress) ∧
    (s.station.state = .offline ∨ s.station.state = .excluded → ∀ i, (s.peer i).present = false) ∧
    ∀ p, s.station.pending = some p → p.leaving = true → s.station.state = .leaving

/-- The station state changes that the part makes without a reset (R145 to R160). -/
def StationState.mayBecome : StationState → StationState → Bool
  | .offline, .listening => true
  | .listening, .joined => true
  | .listening, .offline => true
  | .joined, .leaving => true
  | .joined, .excluded => true
  | .leaving, .offline => true
  | .leaving, .excluded => true
  | .excluded, .offline => true
  | a, b => a = b

/-- A channel is HALTED and at rest, the owner of no tag, with no access in hand and an empty slot (R27, R43, R48). -/
def State.haltedAtRest (s : State) (c : Fin 4) : Prop :=
  (s.channel c).state = .halted ∧ (s.channel c).quiet = true ∧ (s.channel c).heldSlot = none ∧
    ∀ k, (s.tag k).owner ≠ some c

/-- A host write of the command register with one of some codes, by whichever row names it (R176, R195). -/
def writesCode (codes : List Nat) : Instr → Bool
  | .registerWrite r w => r = 1 && decide (Instr.commandCode w ∈ codes)
  | .commandWriteWhileExecuting w | .unknownCommandCode w => decide (Instr.commandCode w ∈ codes)
  | _ => false

/-- A reset: POWER_ON_RESET, or RESET by its row or by a write of its code. -/
def isReset (i : Instr) : Bool :=
  match i with
  | .powerOnReset _ | .reset => true
  | i => writesCode [0x04] i

/-- A START, STOP or RESUME, by its row or by a write of its code. -/
def isChannelCommand (i : Instr) : Bool :=
  match i with
  | .start | .stop | .resume => true
  | i => writesCode [0x05, 0x06, 0x07] i

/-- A CONFIGURE, by its row or by a write of its code, or the taking of one that waits. -/
def isConfigure (i : Instr) : Bool :=
  match i with
  | .configure | .pendingCommandTaken => true
  | i => writesCode [0x01] i

/-- A presence frame has been made the pending presence between two states: with four tries of its own, the fresh flag
as it stood and the advertised mask as it stands (R149, R151). -/
def State.PresenceMade (s t : State) (leaving : Bool) : Prop :=
  ∃ p, t.station.pending = some p ∧ p.incarnation = s.station.config.incarnation ∧
    p.interval = s.station.config.presenceInterval ∧ p.fresh = t.station.fresh ∧ p.leaving = leaving ∧ p.tries = 0 ∧
    ∀ w : Fin 16, p.mask.getLsbD w.val = (t.window w).advertised

/-- What has become of a try on the line once another presence is made (R149, R170): a try of a presence that was still
offered is one of a presence replaced; every other try is as it was. -/
def Try.replaced (x : Try) : Try :=
  match x.frame, x.fate with
  | .presence _, .live => { x with fate := .replaced }
  | _, _ => x

/-- The state with only the result of a command set, no command executing (R176). -/
def State.withResult (s : State) (r : CommandResult) : State := { s with port := { s.port with result := r, executing := none } }

/-- Two states hold the same outside the blocks of station control and the roster, the trunk interface, the memos and the
host port. -/
def State.SameWork (s t : State) : Prop :=
  t.listStore = s.listStore ∧ t.engine.channels = s.engine.channels ∧ t.memory = s.memory ∧
    t.responder.windows = s.responder.windows ∧ t.responder.queue = s.responder.queue ∧
    t.responder.execution = s.responder.execution ∧ t.notices = s.notices ∧ t.counters = s.counters ∧
    t.writer = s.writer ∧ t.pending = s.pending

/-- The station has returned to OFFLINE, with the STATION record given (R74, R127, R146, R152, R159, R161, R171, R174). -/
def State.ReturnedOffline (what : StationEvent) (s t : State) : Prop :=
  t.station.state = .offline ∧ t.station.events = s.station.events ++ [what] ∧ t.station.listeningTimer = .stopped ∧
    t.station.presenceTimer = .stopped ∧ t.station.fresh = false ∧ t.station.pending = none ∧
    t.station.farewellOffered = false ∧ t.station.config = s.station.config ∧ t.station.strap = s.station.strap ∧
    (∀ a, t.peer a = Peer.reset) ∧ (∀ a, t.memo a = none) ∧ t.trunk = ⟨[], false, s.trunk.pointer, s.trunk.line⟩ ∧
    (∀ k, (t.tag k).state ≠ .cooling) ∧ (∀ k, (s.tag k).state ≠ .cooling → t.tag k = s.tag k) ∧ s.SameWork t ∧
    t.port = s.port

/-- A command brings an address conflict (R173): a frame with the own source, received while the station sends nothing, or
an intact echo with the own source that differs from the frame sent. -/
def State.MeetsConflict (s : State) : Instr → Prop
  | .receiveFrame frame => s.trunk.line = none ∧ frame.rate = s.station.config.rate ∧
    frame.rateChanged = false ∧ receiveChecks frame.bytes = true ∧
    sourceOf frame.bytes = s.ownAddress
  | .tryEnd echo => ∃ f bytes fate, s.trunk.line = some ⟨f, bytes, fate, false⟩ ∧ echo ≠ bytes ∧
    checkGood echo = true ∧ sourceOf echo = s.ownAddress
  | _ => False

/-! ## A failing channel -/

/-- The record of a tag that has left its channel at the end of its transaction: COOLING for 2 D if an attempt of it went
unanswered, else FREE (R68). -/
def State.releasedTag (s : State) (k : Fin 16) : Tag :=
  { s.tag k with
    state := if (s.tag k).unanswered then .cooling else .free
    owner := none
    completing := false
    timer := if (s.tag k).unanswered then .running (2 * s.station.config.replyDeadline.toNat) else .stopped }

/-- The context of a channel that leaves RUNNING or WAITING: nothing prepared or waited for; of what it was preparing, an
access in progress runs to its end with its result dropped, and one not begun is withdrawn (R26, R34, R39, R51, R100). -/
def Channel.left (ch : Channel) : Channel :=
  { ch with
    prepared := none, issueBuffer := List.replicate 16 0, sweepHeader := none, noticeWait := .absent
    waitBooking := none, waitTimer := .stopped
    preparation := ch.preparation.bind fun p => if p.begun then some { p with dropped := true } else none }

/-- The notices of a channel that wait in the queue are DETACHED (R130). -/
def State.detachedNotices (s : State) (c : Fin 4) : List QueuedNotice :=
  s.notices.queue.map fun n => if n.origin = .channel c then { n with origin := .detached } else n

/-- A tag that ends when its channel goes STOPPING or FAILING: one in BACKOFF, unless it is completing (R67, R71). -/
def State.endsWith (s : State) (c : Fin 4) (k : Fin 16) : Prop :=
  (s.tag k).state = .backoff ∧ (s.tag k).completing = false ∧ (s.tag k).owner = some c

/-- A RUNNING or WAITING channel goes FAILING (R26, R40, R41, R51, R71, R130): with the error and detail, its resume
segment the lowest of the segment that the cause names and those of its tags in BACKOFF, which are ended; its notices in
the queue become DETACHED, and nothing else changes. -/
def State.ChannelFails (c : Fin 4) (error : HaltError) (detail : HaltDetail) (segment : Nat) (s t : State) : Prop :=
  (∃ n ≤ segment, (∀ k, s.endsWith c k → n ≤ (s.tag k).segment) ∧
    (n = segment ∨ ∃ k, s.endsWith c k ∧ (s.tag k).segment = n) ∧
    t.channel c = { (s.channel c).left with
      state := .failing, haltError := some error, haltDetail := detail, resumeSegment := some n }) ∧
  (∀ d, d ≠ c → t.channel d = s.channel d) ∧
  (∀ k, s.endsWith c k → t.tag k = s.releasedTag k) ∧ (∀ k, ¬ s.endsWith c k → t.tag k = s.tag k) ∧
  t.notices = { s.notices with queue := s.detachedNotices c } ∧ t.engine.lastServed = s.engine.lastServed ∧
  { t with engine := s.engine, notices := s.notices } = s

/-- The segment of a channel fails for a cause that halts (R40, R41): a RUNNING channel goes FAILING, a FAILING one keeps
its first error and lowers its resume segment to the segment, and a channel in another state does not change. -/
def State.SegmentFails (c : Fin 4) (error : HaltError) (detail : HaltDetail) (segment : Nat) (s t : State) : Prop :=
  ((s.channel c).state = .running ∨ (s.channel c).state = .waiting → State.ChannelFails c error detail segment s t) ∧
  ((s.channel c).state = .failing → t = s.setChannel c { s.channel c with
    resumeSegment := some (min segment ((s.channel c).resumeSegment.getD segment)) }) ∧
  ((s.channel c).state ≠ .running → (s.channel c).state ≠ .waiting → (s.channel c).state ≠ .failing → t = s)

/-! ## Entries -/

/-- The course of a channel's captured entry, whose checks have passed, from its kind (R20, R22, R24, R25, R31): END
reports CH_DONE, MARK raises CH_MARK, NOTICE waits for its place, an entry with unresolved segments is left to be
prepared, and a WAIT waits, ends with BOOKING_IDLE, or consumes a set latch. `goesOn u` says what follows where the entry
is finished at once, in state u. -/
def State.CourseTaken (goesOn : State → Prop) (c : Fin 4) (s t : State) : Prop :=
  let ch := s.channel c
  let e := ch.captured
  (e.kind = some .endList → t = s.setChannel c { ch with
    state := .reporting, heldSlot := some (.chDone c ch.startSource) }) ∧
  (e.kind = some .mark → t = s.setChannel c { ch with heldSlot := some (.chMark c ch.entryIndex e.markCode) }) ∧
  (e.kind = some .notice → t = s.setChannel c { ch with noticeWait := .place }) ∧
  (e.makesRequests = true → e.isSweep = true ∨ ch.completed < e.segments → t = s) ∧
  (e.makesRequests = true → e.isSweep = false → e.segments ≤ ch.completed → goesOn s) ∧
  ∀ b : Fin 16, e.kind = some .wait → e.booking = b.val →
    ((s.booking b).latch = true → goesOn (s.setBooking b { s.booking b with latch := false })) ∧
    ((s.booking b).latch = false → (s.booking b).state = .armed → t = s.setChannel c { ch with
      state := .waiting, waitBooking := some b
      waitTimer := if e.timeout = 0 then .stopped else .running e.timeout }) ∧
    ((s.booking b).latch = false → (s.booking b).state ≠ .armed →
      (e.disposition = some .tolerant → t = s.setChannel c { ch.left with
        state := .running, tolerated := ch.tolerated + 1, lastTolerated := some .bookingIdle
        heldSlot := some (.chTolerated c ch.entryIndex (ch.tolerated + 1) (some .bookingIdle)) }) ∧
      (e.disposition ≠ some .tolerant →
        State.SegmentFails c .bookingIdle ⟨none, none, some (BitVec.ofNat 32 b.val)⟩ 0 s t))

/-- A channel begins the entry that has `left` entries before the end of the store, and goes on through the entries that
are finished at once (R3, R7, R9, R31). An entry is captured from the list store as it stands and its fields are set;
the first check that fails halts the channel with BAD_ENTRY, and an index of 1024 fails check 15. That an entry of any
kind sets the cursor is read from R31 by inference (log entry 15). -/
def State.RunsFrom : Nat → Fin 4 → State → State → Prop
  | 0, c, s, t =>
    t = s.setChannel c { s.channel c with
      state := .reporting, entryIndex := 1024, entryUnbegun := false, nextSegment := 0, completed := 0, tolerated := 0
      lastTolerated := none, resumeSegment := some 0, sweepPosition := 0, walk := none, prepared := none
      issueBuffer := List.replicate 16 0, sweepHeader := none, noticeWait := .absent, haltError := some .badEntry
      haltDetail := ⟨none, some 15, none⟩
      heldSlot := some (.chHalted c (s.channel c).startSource 1024 (some .badEntry) ⟨none, some 15, none⟩ 0) }
  | left + 1, c, s, t =>
    let n := 1024 - (left + 1)
    let e := s.entry n
    let begun : Channel := { s.channel c with
      state := .running, entryIndex := n, entryUnbegun := false, captured := e, nextSegment := 0, completed := 0
      tolerated := 0, lastTolerated := none, sweepCursor := e.target, sweepPosition := 0, walk := none, prepared := none
      issueBuffer := List.replicate 16 0, sweepHeader := none, noticeWait := .absent }
    (∀ k, firstFailedCheck s.ownAddress none e = some k → t = s.setChannel c { begun with
      state := .reporting, haltError := some .badEntry, haltDetail := ⟨none, some k, none⟩, resumeSegment := some 0
      heldSlot := some (.chHalted c (s.channel c).startSource n (some .badEntry) ⟨none, some k, none⟩ 0) }) ∧
    (firstFailedCheck s.ownAddress none e = none →
      State.CourseTaken (fun u => State.RunsFrom left c u t) c (s.setChannel c begun) t)

/-- A channel begins the entry at an index (R31). -/
def State.EntryBegun (c : Fin 4) (index : Nat) (s t : State) : Prop := State.RunsFrom (1024 - index) c s t

/-- A channel's current entry is finished (R32): the next one begins at once, or CH_TOLERATED is raised first. -/
def State.EntryFinished (c : Fin 4) (s t : State) : Prop :=
  let ch := s.channel c
  (ch.tolerated = 0 → State.EntryBegun c (ch.entryIndex + 1) s t) ∧
  (ch.tolerated ≠ 0 → t = s.setChannel c { ch with
    heldSlot := some (.chTolerated c ch.entryIndex ch.tolerated ch.lastTolerated) })

/-- Channels WAITING on a booking are released one after the other: each finishes its WAIT entry (R32, R34, R137). -/
def State.ChannelsReleased : List (Fin 4) → State → State → Prop
  | [], s, t => t = s
  | c :: rest, s, t => ∃ u,
    State.EntryFinished c
      (s.setChannel c { s.channel c with state := .running, waitBooking := none, waitTimer := .stopped }) u ∧
    State.ChannelsReleased rest u t

/-! ## The walk of a buffer chain -/

/-- The walk goes on with a span of which some words are wanted (R90, R92): with no walk begun, descriptor 0 of the chain
is to be fetched; else the words wanted that lie in the region in use are placed there, and, where more are wanted, the
next descriptor is to be fetched, or the chain is short at the end of its last region. That a descriptor's address wraps
modulo 2^32 is the model's choice (log entry 41). -/
def WalkGoesOn (chain : Word) (walk : Option Walk) (q : WalkRequest)
    (after : Option Walk × WalkRequest × WalkAnswer) : Prop :=
  (walk = none → after = (none, q, .fetch chain)) ∧
  ∀ w, walk = some w →
    let offset := q.position - w.regionStart
    let here := min q.left (w.regionStart + w.regionLength - q.position)
    let pieces := if here = 0 then q.pieces
      else q.pieces ++ [⟨w.regionBase + BitVec.ofNat 32 (4 * offset), here⟩]
    after = (some { w with offset := if here = 0 then w.offset else offset + here },
      ⟨q.position + here, q.left - here, pieces⟩,
      if here = q.left then .placed
      else if w.last then .short (w.regionStart + w.regionLength) else .fetch (w.descriptorAddress + 8))

/-- The read access of a descriptor's two words (R90). -/
def descriptorAccess (descriptor : Word) : ReadAccess := ⟨descriptor, descriptor, 2, [], false⟩

/-! ## Outcomes -/

/-- The error, the status and the value of the halt for an outcome that is not retried (R42, R77, R81, R193). -/
def Result.halt (claim : Bool) : Result → HaltError × Option Nat × Option Word
  | .accepted | .won _ => (.uncertain, none, none)
  | .lost v => (.claimLost, none, some v)
  | .notReady .held => (.notReady, some 0x02, none)
  | .notReady .busy => (.notReady, some 0x03, none)
  | .notReady .leaving => (.notReady, some 0x04, none)
  | .refused => (.refused, some 0x05, none)
  | .noWindow => (.noWindow, some 0x06, none)
  | .range => (.range, some 0x07, none)
  | .remoteFault => (.remoteFault, some 0x08, none)
  | .timeout => if claim then (.uncertain, some 0x09, none) else (.timeout, none, none)
  | .absent => (.absent, none, none)
  | .peerLost => if claim then (.uncertain, some 0x0B, none) else (.peerLost, none, none)
  | .link => if claim then (.uncertain, some 0x0C, none) else (.link, none, none)
  | .bookingIdle => (.bookingIdle, none, none)
  | .waitTimeout => (.waitTimeout, none, none)

/-- The outcomes that PERSIST retries (R81): NOT_READY, TIMEOUT, LINK, ABSENT and LOST, and PEER_LOST of an operation
that is no CLAIM. -/
def Result.retried (claim : Bool) (r : Result) : Prop :=
  (∃ reason, r = .notReady reason) ∨ r = .timeout ∨ r = .link ∨ r = .absent ∨ (∃ v, r = .lost v) ∨
    (r = .peerLost ∧ claim = false)

/-- The outcomes that complete a segment (R76). -/
def Result.succeeds (r : Result) : Prop := r = .accepted ∨ ∃ v, r = .won v

/-- A sweep READ's outcome is final, and its record is to be written (R67, R86, R87, R95): the tag is completing, and the
write of the header word, at the place that the tag holds (log entry 14), and of the data words after it (log entry 25)
joins the channel's writes, once the walk has placed the data words. A chain that ends within them fails the segment,
with its tag released and the cursor at the peer. -/
def State.RecordAsked (c : Fin 4) (k : Fin 16) (r : Result) (s t : State) : Prop :=
  let tag := s.tag k
  let ch := s.channel c
  let words := if r = .accepted then tag.payload.take tag.count else []
  let header := tag.header.getD 0
  let asked (walk : Option Walk) (stage : WriteStage) : State :=
    (s.setTag k { tag with completing := true, timer := .stopped }).setChannel c { ch with
      sweepHeader := none, walk := walk
      writes := ch.writes ++ [{
        tag := some k, segment := tag.segment, record := some ⟨tag.target, r, words⟩, stage := stage, begun := false }] }
  let headerWrite : WriteAccess :=
    ⟨header, header, [place tag.target 0 ||| place r.code 8 ||| place words.length 16]⟩
  (words = [] → t = asked ch.walk (.writing [headerWrite])) ∧
  (words ≠ [] → ∃ walk request answer,
    WalkGoesOn ch.captured.chainAddress ch.walk ⟨ch.sweepPosition + 1, words.length, []⟩ (walk, request, answer) ∧
    (answer = .placed → t = asked walk (.writing (headerWrite :: writesOf request.pieces words))) ∧
    (∀ d, answer = .fetch d → t = asked walk (.placing header request (descriptorAccess d))) ∧
    (∀ position, answer = .short position →
      State.SegmentFails c .chainShort ⟨none, none, some (BitVec.ofNat 32 position)⟩ tag.segment
        ((s.setTag k (s.releasedTag k)).setChannel c { ch with
          sweepHeader := none, walk := walk, sweepCursor := tag.target }) t))

/-- What an attempt's outcome does (R39, R41, R56, R63, R66, R67, R68, R71, R75, R76, R77, R79, R81, R82, R86). A try of
its frame on the line ends unacted on, the outcome is kept and the timer stops. Then, by the owner: STOPPING, the tag is
released. RUNNING or FAILING, not under SWEEP: a success completes the segment, a READ's once its words are written;
under TOLERANT any other outcome is counted; else it halts a RUNNING channel (under PERSIST only an outcome that it does
not retry, or one at its limit; below the limit the tag goes to BACKOFF), and fails the segment of a FAILING one. Under
SWEEP every outcome resolves the segment. -/
def State.OutcomeTaken (k : Fin 16) (r : Result) (s t : State) : Prop :=
  let kept : Tag := { s.tag k with lastOutcome := some r, timer := .stopped }
  let ended : State := { s.setTag k kept with trunk := { s.trunk with
    line := s.trunk.line.map fun x => if x.frame = .request k ∧ x.fate = .live then { x with fate := .withdrawn } else x } }
  let released : State := ended.setTag k (ended.releasedTag k)
  (kept.owner = none → t = ended) ∧
  ∀ c, kept.owner = some c →
    let ch := s.channel c
    let e := ch.captured
    let claim : Bool := decide (kept.operation = .claim)
    let resolved : Channel := { ch with completed := ch.completed + 1 }
    let tolerated : Channel := { resolved with tolerated := ch.tolerated + 1, lastTolerated := some r }
    let goesOn (ch' : Channel) : Prop :=
      (ch.state = .running → e.isSweep = false → e.segments ≤ ch.completed + 1 →
        State.EntryFinished c (released.setChannel c ch') t) ∧
      (ch.state = .failing ∨ e.isSweep = true ∨ ch.completed + 1 < e.segments → t = released.setChannel c ch')
    let halts : Prop :=
      State.ChannelFails c (r.halt claim).1 ⟨some kept.target, (r.halt claim).2.1, (r.halt claim).2.2⟩ kept.segment released t
    (ch.state ≠ .running → ch.state ≠ .failing → t = released) ∧
    (ch.state = .running ∨ ch.state = .failing → kept.sweep = false →
      (r.succeeds → kept.operation = .read → t = (ended.setTag k { kept with completing := true }).setChannel c { ch with
        writes := ch.writes ++ [{
          tag := some k, segment := kept.segment, record := none
          stage := .writing (writesOf (kept.destination.getD []) (kept.payload.take kept.count)), begun := false }] }) ∧
      (r.succeeds → kept.operation ≠ .read → goesOn resolved) ∧
      (¬ r.succeeds → e.disposition = some .tolerant → goesOn tolerated)) ∧
    (ch.state = .running → kept.sweep = false → ¬ r.succeeds →
      (e.disposition = some .strict → halts) ∧
      (e.disposition = some .persist →
        (¬ r.retried claim → halts) ∧
        (r.retried claim → kept.attempts < e.limit → t = ended.setTag k { kept with
          state := .backoff, timer := .running s.station.config.retryInterval.toNat }) ∧
        (r.retried claim → e.limit ≤ kept.attempts →
          (claim = true ∧ (r = .timeout ∨ r = .link) → halts) ∧
          (¬ (claim = true ∧ (r = .timeout ∨ r = .link)) →
            State.ChannelFails c .persistExhausted ⟨some kept.target, some r.code, r.previous⟩ kept.segment released t)))) ∧
    (ch.state = .failing → kept.sweep = false → ¬ r.succeeds → e.disposition ≠ some .tolerant →
      t = released.setChannel c { ch with
        resumeSegment := some (min kept.segment (ch.resumeSegment.getD kept.segment)) }) ∧
    (ch.state = .running ∨ ch.state = .failing → kept.sweep = true →
      (kept.operation = .read → State.RecordAsked c k r ended t) ∧
      (kept.operation ≠ .read → r.succeeds →
        t = released.setChannel c { resolved with sweepCursor := kept.target + 1 }) ∧
      (kept.operation ≠ .read → ¬ r.succeeds →
        t = released.setChannel c { tolerated with sweepCursor := kept.target + 1 }))

/-! ## A lost peer -/

/-- The tags that a lost peer reaches, of some tags one after the other (R66, R70): each that is QUEUED, SENT or BACKOFF
towards the peer and not completing ends its attempt with PEER_LOST, unanswered if it was SENT or has been on the line in
QUEUED; every other is passed over. -/
def State.TagsLost (address : Nat) : List (Fin 16) → State → State → Prop
  | [], s, t => t = s
  | k :: rest, s, t =>
    let tag := s.tag k
    let reached : Prop := (tag.state = .queued ∨ tag.state = .sent ∨ tag.state = .backoff) ∧ tag.completing = false ∧
      tag.target = address
    (reached → ∃ u, State.OutcomeTaken k .peerLost (s.setTag k { tag with
        unanswered := tag.unanswered || tag.state = .sent || (tag.state = .queued && tag.onLine) }) u ∧
      State.TagsLost address rest u t) ∧
    (¬ reached → State.TagsLost address rest s t)

/-- The loss of a peer is handed on (R70, R118, R155): its tags end with PEER_LOST, in rising tag number (log entry 39),
its memo is emptied, and the memo writes of its queued items are no longer due. -/
def State.PeerLost (i : Fin 40) (s t : State) : Prop :=
  ∃ u, State.TagsLost (i.val + 1) (List.finRange 16) s u ∧
    (∀ j, t.memo j = if j = i then none else u.memo j) ∧
    t.responder.queue = u.responder.queue.map (fun item =>
      if item.source = i.val + 1 then { item with memoDue := false } else item) ∧
    t.responder.windows = u.responder.windows ∧ t.responder.execution = u.responder.execution ∧
    { t with responder := u.responder } = u

/-! ## The work queue -/

/-- How the access of a work item begins (R101, R113, R114): a READ reads its count words at its address, a WRITE writes
its payload there, and a CLAIM begins with the read of its locked pair. -/
def WorkItem.Begins (item : WorkItem) (stage : ItemStage) : Prop :=
  (item.operation = .read → stage = .reading ⟨item.addr, item.addr, item.count.toNat, [], false⟩) ∧
  (item.operation = .write → stage = .writing ⟨item.addr, item.addr, item.payload⟩) ∧
  (item.operation = .claim → stage = .claimRead)

/-! ## The end of a frame -/

/-- A frame still offered is abandoned at its fourth failed try, its try no longer on the line (R68, R77, R130, R150,
R169): it is counted, and its owner acts. A reply leaves the queue; a presence leaves, and the farewell's end returns the
station to OFFLINE; a notice leaves, with NOTICE_SEND_FAILED for the host, LINK for a channel that waits for its echo and
nothing when DETACHED; the rotation passes a request, whose attempt ends with LINK, unanswered, whoever owns its tag. -/
def State.FrameAbandoned (f : TryFrame) (s t : State) : Prop :=
  let counted : State := { s with
    counters := { s.counters with abandonedFrames := min (s.counters.abandonedFrames + 1) 65535 } }
  (f = .reply → t = { counted with trunk := { s.trunk with replies := s.trunk.replies.tail } }) ∧
  (∀ fresh p, f = .presence fresh → s.station.pending = some p →
    (p.leaving = false → t = { counted with station := { s.station with pending := none } }) ∧
    (p.leaving = true → State.ReturnedOffline .left counted t)) ∧
  (∀ destination arrival n rest, f = .notice destination arrival → s.notices.queue = n :: rest →
    let left : State := { counted with notices := { s.notices with queue := rest } }
    (n.origin = .detached → t = left) ∧
    (n.origin = .host → t = offerDroppable (.noticeSendFailed n.code n.destination) left) ∧
    (∀ c, n.origin = .channel c →
      let ch := s.channel c
      (ch.state = .running → ch.noticeWait = .echo →
        (ch.captured.disposition = some .tolerant → t = left.setChannel c { ch.left with
          tolerated := ch.tolerated + 1, lastTolerated := some .link
          heldSlot := some (.chTolerated c ch.entryIndex (ch.tolerated + 1) (some .link)) }) ∧
        (ch.captured.disposition ≠ some .tolerant → State.ChannelFails c .link HaltDetail.none 0 left t)) ∧
      (ch.state ≠ .running ∨ ch.noticeWait ≠ .echo → t = left))) ∧
  (∀ k, f = .request k → State.OutcomeTaken k .link
    ({ counted with trunk := { s.trunk with pointer := k + 1 } }.setTag k { s.tag k with unanswered := true }) t)

/-! ## An address conflict -/

/-- A JOINED or LEAVING station is EXCLUDED (R45, R73, R89, R103, R126, R132, R160, R174): its channels that are at work
go FAILING, with the lowest segment neither completed nor tolerated to resume at (the next entry from its segment 0 when
paused at CH_TOLERATED), a sweep's cursor at the peer of its outstanding segment; its writes that have begun run on
without their tags; its tags are FREE, a completing field cleared with the write that it marks (log entry 40), its queues
are empty, and the item that executes goes on, at the head of the queue (log entry 30), to no reply; every window is
tested. The rotation's pointer and what is not named are kept. -/
def State.Excluded (s t : State) : Prop :=
  t.station.state = .excluded ∧ t.station.events = s.station.events ++ [.excluded] ∧
  t.station.presenceTimer = .stopped ∧ t.station.fresh = false ∧ t.station.pending = none ∧
  t.station.farewellOffered = false ∧ t.station.config = s.station.config ∧ t.station.strap = s.station.strap ∧
  t.station.listeningTimer = s.station.listeningTimer ∧
  (∀ a, t.peer a = Peer.reset) ∧ (∀ a, t.memo a = none) ∧
  t.trunk = ⟨[], false, s.trunk.pointer, s.trunk.line.map fun x => { x with fate := .withdrawn }⟩ ∧
  t.notices = { s.notices with queue := [] } ∧ t.engine.lastServed = s.engine.lastServed ∧
  (∀ k, t.tag k = { s.tag k with state := .free, owner := none, completing := false, timer := .stopped }) ∧
  (∀ c, (s.channel c).state = .running ∨ (s.channel c).state = .waiting ∨ (s.channel c).state = .failing →
    let ch := s.channel c
    let outstanding (k : Fin 16) : Prop := (s.tag k).owned = true ∧ (s.tag k).owner = some c
    let sweeping (k : Fin 16) : Prop := outstanding k ∧ (s.tag k).sweep = true
    let issued : Nat := if ch.state = .failing then ch.resumeSegment.getD ch.nextSegment else ch.nextSegment
    t.channel c = { ch.left with
      writes := (ch.writes.filter CompletionWrite.begun).map fun w => { w with tag := none }
      state := .failing, haltError := some .excluded, haltDetail := HaltDetail.none
      entryIndex := (t.channel c).entryIndex, entryUnbegun := (t.channel c).entryUnbegun
      resumeSegment := (t.channel c).resumeSegment, sweepCursor := (t.channel c).sweepCursor } ∧
    (∀ k, sweeping k → (∀ j, j < k → ¬ sweeping j) → (t.channel c).sweepCursor = (s.tag k).target) ∧
    ((∀ k, ¬ sweeping k) → (t.channel c).sweepCursor = ch.sweepCursor) ∧
    (ch.pausedAtTolerated = true → (t.channel c).entryIndex = ch.entryIndex + 1 ∧
      (t.channel c).entryUnbegun = true ∧ (t.channel c).resumeSegment = some 0) ∧
    (ch.pausedAtTolerated = false → (t.channel c).entryIndex = ch.entryIndex ∧
      (t.channel c).entryUnbegun = ch.entryUnbegun ∧
      ∃ n, (t.channel c).resumeSegment = some n ∧ n ≤ issued ∧ (∀ k, outstanding k → n ≤ (s.tag k).segment) ∧
        (n = issued ∨ ∃ k, outstanding k ∧ (s.tag k).segment = n))) ∧
  (∀ c, (s.channel c).state = .stopping → t.channel c = { (s.channel c).left with
    writes := ((s.channel c).writes.filter CompletionWrite.begun).map fun w => { w with tag := none } }) ∧
  (∀ c, (s.channel c).state = .idle ∨ (s.channel c).state = .reporting ∨ (s.channel c).state = .halted →
    t.channel c = s.channel c) ∧
  (s.responder.execution = none → t.responder.queue = [] ∧ t.responder.execution = none) ∧
  (∀ e item rest, s.responder.execution = some e → s.responder.queue = item :: rest →
    t.responder.queue = [{ item with memoDue := false }] ∧ t.responder.execution = some { e with discarded := true }) ∧
  (∀ i, t.window i = (s.window i).complete i (t.inWork i)) ∧
  t.listStore = s.listStore ∧ t.port = s.port ∧ t.memory = s.memory ∧ t.counters = s.counters ∧ t.writer = s.writer ∧
  t.pending = s.pending

/-- An address conflict reaches station control, by the station state (R148, R160): a JOINED or LEAVING station is
EXCLUDED, a LISTENING station's join fails, and an OFFLINE or EXCLUDED one is not affected. -/
def State.ConflictTaken (s t : State) : Prop :=
  (s.station.state = .joined ∨ s.station.state = .leaving → State.Excluded s t) ∧
  (s.station.state = .listening → State.ReturnedOffline .joinFailed s t) ∧
  (s.station.state = .offline ∨ s.station.state = .excluded → t = s)

/-! ## The requesters of the local bus -/

/-- The next burst of a read: its words left, cut at the end of the aligned block of 64 bytes (R98). -/
def State.ReadBurst (owner : BurstOwner) (a : ReadAccess) (b : Burst) : Prop :=
  b = { owner := owner, addr := a.next, count := min a.left (16 - a.next.toNat / 4 % 16), write := none }

/-- The next burst of a write, cut in the same way (R98). -/
def State.WriteBurst (owner : BurstOwner) (a : WriteAccess) (b : Burst) : Prop :=
  let n := min a.words.length (16 - a.next.toNat / 4 % 16)
  b = { owner := owner, addr := a.next, count := n, write := some (a.words.take n) }

/-- A channel presents a burst, and `begun` is its context once that burst is granted (R94, R95, R100): RUNNING, STOPPING
or FAILING, the next burst of its oldest completion write, or, with none, of what it is preparing; the access has then
begun. -/
def State.ChannelPresents (s : State) (c : Fin 4) (b : Burst) (begun : Channel) : Prop :=
  let ch := s.channel c
  (ch.state = .running ∨ ch.state = .stopping ∨ ch.state = .failing) ∧
  ((∃ w later, ch.writes = w :: later ∧ begun = { ch with writes := { w with begun := true } :: later } ∧
      ((∃ header q a, w.stage = .placing header q a ∧ State.ReadBurst (.completion c) a b) ∨
        (∃ a rest, w.stage = .writing (a :: rest) ∧ State.WriteBurst (.completion c) a b))) ∨
    (∃ p, ch.writes = [] ∧ ch.preparation = some p ∧
      ((∃ q a, p.stage = .fetching q a ∧ State.ReadBurst (.preparation c) a b ∧
          begun = { ch with preparation := some { p with stage := .fetching q { a with begun := true } } }) ∨
        (∃ placement got a later, p.stage = .payload placement got a later ∧ State.ReadBurst (.preparation c) a b ∧
          begun = { ch with
            preparation := some { p with stage := .payload placement got { a with begun := true } later } }))))

/-- A requester presents a burst, and `t` is the state with its access begun (R99, R100, R101, R102, R184). The event
writer: the four words of its record at their slot, whose address wraps modulo 2^32 (log entry 45). The responder: the
next burst of the READ or WRITE item that executes, or a CLAIM's read of one word, which locks the bus. The engine: the
burst of the first channel after the last served one that presents any, which is then the last served. -/
def State.Presents (s : State) (r : Requester) (b : Burst) (t : State) : Prop :=
  match r with
  | .writer => t = s ∧ ∃ w, s.writer.inFlight = some w ∧ b = {
      owner := .writer
      addr := s.station.config.ringBase + BitVec.ofNat 32 (16 * (w.index.toNat % s.ringSize))
      count := 4, write := some (w.event.words w.index) }
  | .responder => ∃ e item rest, s.responder.execution = some e ∧ s.responder.queue = item :: rest ∧
      ((∃ a, e.stage = .reading a ∧ State.ReadBurst .responder a b ∧ t = s) ∨
        (∃ a, e.stage = .writing a ∧ State.WriteBurst .responder a b ∧ t = s) ∨
        (e.stage = .claimRead ∧ b = { owner := .responder, addr := item.addr, count := 1, write := none } ∧
          t = { s with memory := { s.memory with lock := true } }))
  | .engine => ∃ c begun, State.ChannelPresents s c b begun ∧
      (∀ d : Fin 4, (d - (s.memory.engineLast + 1)).val < (c - (s.memory.engineLast + 1)).val →
        ∀ b' begun', ¬ State.ChannelPresents s d b' begun') ∧
      t = { s.setChannel c begun with memory := { s.memory with engineLast := c } }

end Sys2Proof.Machine
end

