-- ==== Sys2Proof/Certificates/Slice0/Obligations.lean ====
section
/-! DEFINITION. The statements for the provers: what each command does, by the spec's numbered rules, and what every step
keeps. A statement about a command names the conditions on the state under which the command has the effect stated. -/

open Sys2Proof Sys2Proof.Machine

/-! ## The machine -/

/-- The command at the front of the queue is what a step runs, on the state with the rest of the queue. The queue is the
model's own (log entry 29). -/
def Obligations.StepRunsFrontCommand : Prop :=
  ∀ (c : Instr) (rest : List Instr) (s : State), step { s with pending := c :: rest } = exec c { s with pending := rest }

/-- R1, R47, R74, R103, R127, R132, R141, R142, R146, R152, R174, R178, R189: a power-on reset from every state. That the
queue of the commands that wait is kept is the model's choice (log entry 29), and so is the field that shows what a list
data read has returned, 0 with the rest of the host port (log entry 28). -/
def Obligations.PowerOnResetEffect : Prop :=
  ∀ (straps : BitVec 6) (s : State), ∃ t, exec (.powerOnReset straps) s = .next t ∧
    (∀ a, readStore t.listStore a = 0) ∧ (∀ i, t.entry i = Entry.zero) ∧
    (∀ c, t.channel c = Channel.reset) ∧ (∀ i, t.tag i = Tag.reset) ∧ (∀ w, t.window w = Window.reset) ∧
    (∀ b, t.booking b = Booking.reset) ∧ (∀ a, t.peer a = Peer.reset) ∧ (∀ a, t.memo a = none) ∧
    t.engine.lastServed = 3 ∧ t.memory = MemoryUnit.reset ∧ t.responder.queue = [] ∧ t.responder.execution = none ∧
    t.notices.queue = [] ∧ t.notices.lastServed = 3 ∧ t.trunk = Trunk.reset ∧ t.counters = Counters.reset ∧
    t.writer = Writer.reset ∧ t.port = Port.reset ∧ t.station.config = Configuration.reset ∧
    t.station.state = .offline ∧ t.station.listeningTimer = .stopped ∧ t.station.presenceTimer = .stopped ∧
    t.station.fresh = false ∧ t.station.pending = none ∧ t.station.farewellOffered = false ∧ t.station.events = [] ∧
    t.notices.ownEchoes = [] ∧ t.ownAddress = straps.toNat ∧ t.statusWord = place straps.toNat 8 ∧ t.resultWord = 0 ∧
    t.pending = s.pending

/-- R162, R175, R189: a station reset, in every station state and whether or not a command executes, keeps the list store
and the strap address and brings everything else to its reset values, with the result DONE. That the queue of the commands
that wait is kept is the model's choice (log entry 29), and so is the field that shows what a list data read has returned,
0 with the rest of the host port (log entry 28). -/
def Obligations.StationResetEffect : Prop :=
  ∀ s : State, ∃ t, exec .reset s = .next t ∧
    (∀ a, readStore t.listStore a = readStore s.listStore a) ∧ t.ownAddress = s.ownAddress ∧
    (∀ c, t.channel c = Channel.reset) ∧ (∀ i, t.tag i = Tag.reset) ∧ (∀ w, t.window w = Window.reset) ∧
    (∀ b, t.booking b = Booking.reset) ∧ (∀ a, t.peer a = Peer.reset) ∧ (∀ a, t.memo a = none) ∧
    t.engine.lastServed = 3 ∧ t.memory = MemoryUnit.reset ∧ t.responder.queue = [] ∧ t.responder.execution = none ∧
    t.notices.queue = [] ∧ t.notices.lastServed = 3 ∧ t.trunk = Trunk.reset ∧ t.counters = Counters.reset ∧
    t.writer = Writer.reset ∧ t.station.config = Configuration.reset ∧ t.station.state = .offline ∧
    t.station.listeningTimer = .stopped ∧ t.station.presenceTimer = .stopped ∧ t.station.fresh = false ∧
    t.station.pending = none ∧ t.station.farewellOffered = false ∧ t.station.events = [] ∧ t.notices.ownEchoes = [] ∧
    t.port.arguments = Vector.replicate 4 0 ∧ t.port.listAddress = 0 ∧ t.port.readData = 0 ∧
    t.port.enableRecords = false ∧ t.port.enableFault = false ∧ t.port.executing = none ∧ t.resultWord = 1 ∧
    t.statusWord = place s.ownAddress 8 ∧ t.pending = s.pending

/-! ## The command unit -/

/-- R176, R177: while a command executes, a write of any code but RESET's is ignored and sets the result code to BUSY, the
command still executing; a write of RESET's code is taken at once. While none executes, a code that names none of the
seventeen commands gives BAD_ARG, and nothing else changes. -/
def Obligations.CommandRefusals : Prop :=
  ∀ (value : Word) (s : State),
    (s.port.executing = none → Instr.commandCode value = 0 ∨ 17 < Instr.commandCode value →
      exec (.unknownCommandCode value) s = .next { s with port := { s.port with result := .badArg } }) ∧
    (s.port.executing ≠ none → Instr.commandCode value = 0 ∨ 17 < Instr.commandCode value →
      exec (.unknownCommandCode value) s = .next { s with port := { s.port with result := .busy } }) ∧
    (s.port.executing ≠ none → Instr.commandCode value ≠ 4 →
      exec (.commandWriteWhileExecuting value) s = .next { s with port := { s.port with result := .busy } }) ∧
    (s.port.executing ≠ none → Instr.commandCode value = 4 →
      exec (.commandWriteWhileExecuting value) s = exec .reset s) ∧
    (s.port.executing ≠ none →
      ∀ c ∈ [Instr.configure, .join, .leave, .start, .stop, .resume, .windowSet, .hold, .release, .flip, .close, .book,
        .unbook, .notice, .eventRingReset, .countersClear],
      exec c s = .next { s with port := { s.port with result := .busy } })

/-- R176, R195: a host write of the command register is the command of its code, whatever the other 24 bits. That the
three rows which carry a written word take it alike is the model's choice (log entry 27). -/
def Obligations.CommandCodes : Prop :=
  ∀ (value : Word) (s : State),
    ∀ p ∈ [(0x01, Instr.configure), (0x02, .join), (0x03, .leave), (0x04, .reset), (0x05, .start), (0x06, .stop),
        (0x07, .resume), (0x08, .windowSet), (0x09, .hold), (0x0A, .release), (0x0B, .flip), (0x0C, .close),
        (0x0D, .book), (0x0E, .unbook), (0x0F, .notice), (0x10, .eventRingReset), (0x11, .countersClear)],
      Instr.commandCode value = p.1 → exec (.registerWrite 1 value) s = exec p.2 s ∧
        exec (.unknownCommandCode value) s = exec p.2 s ∧ exec (.commandWriteWhileExecuting value) s = exec p.2 s

/-- R176, R179, R188: with a record write in flight, EVENT_RING_RESET, and a CONFIGURE whose arguments are in range,
start to execute with the arguments as they stand, and nothing else changes. Once the record write has ended, the waiting
command is taken, with the arguments it was issued with: EVENT_RING_RESET as its own rule gives (that it discards a
droppable record whose write failed with the others is the model's choice, log entry 47); CONFIGURE with DONE in
OFFLINE and BAD_STATE elsewhere. That the result code keeps its value meanwhile, that a CONFIGURE waits in every station
state, and that its BAD_STATE is judged when it is taken and not when it is issued, are read from the rules by inference
(log entry 12). -/
def Obligations.WaitingCommands : Prop :=
  ∀ s : State,
    (s.port.executing = none → s.writer.inFlight ≠ none →
      exec .eventRingReset s = .next { s with port := { s.port with executing := some .eventRingReset } } ∧
      (Arguments.configuration s.port.arguments ≠ none → exec .configure s =
        .next { s with port := { s.port with executing := some (.configure s.port.arguments) } })) ∧
    (s.writer.inFlight = none → s.port.executing = some .eventRingReset → exec .pendingCommandTaken s =
      .next (State.withResult { s with
        writer := { s.writer with
          producer := 0, consumer := 0, eventFault := false, ringError := false, slots := []
          dropCount := min (s.writer.dropCount + s.writer.slots.length) 65535 }
        counters := { s.counters with
          droppedEvents := min (s.counters.droppedEvents + s.writer.slots.length) 65535 } } .done)) ∧
    (∀ a config, s.writer.inFlight = none → s.port.executing = some (.configure a) →
      Arguments.configuration a = some config →
      (s.station.state = .offline → exec .pendingCommandTaken s = .next (State.withResult { s with
        station := { s.station with config := config }
        writer := { s.writer with producer := 0, consumer := 0, eventFault := false, ringError := false } } .done)) ∧
      (s.station.state ≠ .offline → exec .pendingCommandTaken s = .next (s.withResult .badState)))

/-- R144, R179, R195: CONFIGURE with no record write in flight. Arguments out of range give BAD_ARG; a station not OFFLINE
gives BAD_STATE; else the configuration record takes the fields of the argument registers, the ring is configured, its
indices are 0 and its flags clear, and nothing else changes. -/
def Obligations.ConfigureEffect : Prop :=
  ∀ s : State, s.port.executing = none → s.writer.inFlight = none →
    let a := s.port.arguments
    let outOfRange : Prop := field a[0] 8 8 = 0 ∨ field a[0] 16 8 = 0 ∨ field a[0] 24 8 = 0 ∨ 3 < field a[1] 0 3 ∨
      8 < field a[1] 8 4 ∨ field a[2] 0 4 ≠ 0
    (outOfRange → exec .configure s = .next { s with port := { s.port with result := .badArg } }) ∧
    (¬ outOfRange → s.station.state ≠ .offline →
      exec .configure s = .next { s with port := { s.port with result := .badState } }) ∧
    (¬ outOfRange → s.station.state = .offline → ∃ config : Configuration,
      config.incarnation.toNat = field a[0] 0 8 ∧ config.presenceInterval.toNat = field a[0] 8 8 ∧
      config.replyDeadline.toNat = field a[0] 16 8 ∧ config.retryInterval.toNat = field a[0] 24 8 ∧
      [Rate.mbit1p5, .mbit3, .mbit6, .mbit12][field a[1] 0 3]? = some config.rate ∧
      config.ringBase = a[2] ∧ config.ringCode.val = field a[1] 8 4 ∧ config.ringConfigured = true ∧
      exec .configure s = .next { s with
        port := { s.port with result := .done }
        station := { s.station with config := config }
        writer := { s.writer with producer := 0, consumer := 0, eventFault := false, ringError := false } })

/-- R178, R188: EVENT_RING_RESET with no record write in flight, and COUNTERS_CLEAR, which leaves the writer's drop
count. That the reset discards a droppable record whose write failed with the others in the slots is the model's choice
(log entry 47). -/
def Obligations.RingResetAndCountersClear : Prop :=
  ∀ s : State, s.port.executing = none →
    (s.writer.inFlight = none → exec .eventRingReset s = .next { s with
      port := { s.port with result := .done }
      writer := { s.writer with
        producer := 0, consumer := 0, eventFault := false, ringError := false, slots := []
        dropCount := min (s.writer.dropCount + s.writer.slots.length) 65535 }
      counters := { s.counters with
        droppedEvents := min (s.counters.droppedEvents + s.writer.slots.length) 65535 } }) ∧
    exec .countersClear s = .next { s with
      port := { s.port with result := .done }
      counters := { checkErrors := 0, staleReplies := 0, droppedRequests := 0, abandonedFrames := 0, droppedEvents := 0 } }

/-! ## The register window -/

/-- R2: the list port. A write of the list address takes the value modulo 4096; a read of the list data returns the word
at the list address, a write stores there, and each advances the address by one, wrapping from 4095 to 0. A write changes
no other word of the store. That a read shows in a field of the state is the model's choice (log entry 28). -/
def Obligations.ListPortEffect : Prop :=
  ∀ (value : Word) (s : State),
    (∃ t, exec (.listAddressWrite value) s = .next t ∧ t.port.listAddress.toNat = value.toNat % 4096 ∧
      { t.port with listAddress := s.port.listAddress } = s.port ∧ { t with port := s.port } = s) ∧
    (∃ t, exec .listDataRead s = .next t ∧ t.port.readData = readStore s.listStore s.port.listAddress.toNat ∧
      t.port.listAddress.toNat = (s.port.listAddress.toNat + 1) % 4096 ∧
      { t.port with listAddress := s.port.listAddress, readData := s.port.readData } = s.port ∧
      { t with port := s.port } = s) ∧
    (s.StoreSound → ∃ t, exec (.listDataWrite value) s = .next t ∧
      (∀ a, readStore t.listStore a =
        if a = s.port.listAddress.toNat then value else readStore s.listStore a) ∧
      t.port.listAddress.toNat = (s.port.listAddress.toNat + 1) % 4096 ∧
      { t.port with listAddress := s.port.listAddress } = s.port ∧
      { t with port := s.port, listStore := s.listStore } = s)

/-- R180: a write of the consumer index, with a record write in flight counted as placed, is valid when the unconsumed
count that results is at most the ring size; then the index takes the low 16 bits, else the ring error is set. -/
def Obligations.ConsumerIndexWrite : Prop :=
  ∀ (value : Word) (s : State),
    let placed := s.writer.producer.toNat + s.writer.inFlight.isSome.toNat
    let count := (placed + 65536 - value.toNat % 65536) % 65536
    (count ≤ s.ringSize → exec (.consumerIndexWrite value) s =
      .next { s with writer := { s.writer with consumer := value.extractLsb' 0 16 } }) ∧
    (s.ringSize < count → exec (.consumerIndexWrite value) s =
      .next { s with writer := { s.writer with ringError := true } })

/-- R175, R180, R181: a write of status with the ring error field set clears the ring error, and with it clear changes
nothing; a write of interrupt enable sets RECORDS and FAULT, and the interrupt line follows its condition, which status
shows in bit 18. -/
def Obligations.StatusAndEnableWrites : Prop :=
  ∀ (value : Word) (s : State),
    (bit value 17 = true → exec (.statusWrite value) s =
      .next { s with writer := { s.writer with ringError := false } }) ∧
    (bit value 17 = false → exec (.statusWrite value) s = .next s) ∧
    ∃ t, exec (.interruptEnableWrite value) s = .next t ∧
      t = { s with port := { s.port with enableRecords := bit value 0, enableFault := bit value 1 } } ∧
      (t.interruptLine = true ↔
        bit value 0 = true ∧ s.writer.producer ≠ s.writer.consumer ∨
        bit value 1 = true ∧ (s.writer.eventFault = true ∨ s.writer.ringError = true)) ∧
      bit t.statusWord 18 = t.interruptLine

/-- R175, R194, R195: a write of an argument register stores the whole word there; a write of a register that is read
only, or of the unused last word, changes nothing; of a register with a row of its own, it is that row's command (the
model's choice, log entry 27). -/
def Obligations.RegisterWriteEffect : Prop :=
  ∀ (r : Fin 16) (value : Word) (s : State),
    (∀ i : Fin 4, r.val = 3 + i.val → exec (.registerWrite r value) s =
      .next { s with port := { s.port with arguments := s.port.arguments.set i value } }) ∧
    (r.val ∈ [2, 9, 12, 13, 14, 15] → exec (.registerWrite r value) s = .next s) ∧
    (r.val = 0 → exec (.registerWrite r value) s = exec (.statusWrite value) s) ∧
    (r.val = 7 → exec (.registerWrite r value) s = exec (.listAddressWrite value) s) ∧
    (r.val = 8 → exec (.registerWrite r value) s = exec (.listDataWrite value) s) ∧
    (r.val = 10 → exec (.registerWrite r value) s = exec (.consumerIndexWrite value) s) ∧
    (r.val = 11 → exec (.registerWrite r value) s = exec (.interruptEnableWrite value) s)

/-! ## Station control and the roster -/

/-- R147: JOIN by the station state. -/
def Obligations.JoinEffect : Prop :=
  ∀ s : State, s.port.executing = none →
    (s.station.state ≠ .offline → exec .join s = .next (s.withResult .badState)) ∧
    (s.station.state = .offline →
      (s.ownAddress = 0 ∨ 40 < s.ownAddress ∨ s.station.config.ringConfigured = false →
        exec .join s = .next (s.withResult .badState)) ∧
      (1 ≤ s.ownAddress → s.ownAddress ≤ 40 → s.station.config.ringConfigured = true →
        (s.station.events ≠ [] → exec .join s = .next (s.withResult .busy)) ∧
        (s.station.events = [] → exec .join s = .next (State.withResult { s with
          station := { s.station with
            state := .listening
            listeningTimer := .running (2 * s.station.config.presenceInterval.toNat) } } .accepted))))

/-- R148, R156, R159, R161, R74, R127: LEAVE outside JOINED. From LISTENING and EXCLUDED the station returns to OFFLINE
at once. -/
def Obligations.LeaveOutsideJoined : Prop :=
  ∀ s : State, s.port.executing = none →
    (s.station.state = .offline → exec .leave s = .next (s.withResult .badState)) ∧
    (s.station.state = .leaving → exec .leave s = .next (s.withResult .busy)) ∧
    (s.station.state = .listening ∨ s.station.state = .excluded → ∃ t, exec .leave s = .next t ∧
      t.port = (s.withResult .done).port ∧ s.SameWork t ∧
      t.station.state = .offline ∧ t.station.events = s.station.events ++ [.left] ∧
      t.station.listeningTimer = .stopped ∧ t.station.presenceTimer = .stopped ∧ t.station.fresh = false ∧
      t.station.pending = none ∧ t.station.farewellOffered = false ∧ t.station.config = s.station.config ∧
      t.station.strap = s.station.strap ∧ (∀ a, t.peer a = Peer.reset) ∧ (∀ a, t.memo a = none) ∧
      t.trunk.replies = [] ∧ t.trunk.yielding = false ∧ (∀ i, (t.tag i).state ≠ .cooling) ∧
      ∀ i, (s.tag i).state ≠ .cooling → t.tag i = s.tag i)

/-- R26, R40, R41, R44, R51, R71, R130, R157: LEAVE in JOINED. The station goes LEAVING; every RUNNING or WAITING channel
goes FAILING with LEFT, its resume segment the lowest of its next segment and those of its tags in BACKOFF, or at the
next index, which it has not begun, with resume segment 0 when it is paused at CH_TOLERATED; every other channel is
unchanged. A BACKOFF tag of a channel that goes FAILING is ended, unless it is completing; the channel's notices in the
queue become DETACHED. -/
def Obligations.LeaveInJoined : Prop :=
  ∀ s : State, s.port.executing = none → s.station.state = .joined → ∃ t, exec .leave s = .next t ∧
    let working (c : Fin 4) : Prop := (s.channel c).state = .running ∨ (s.channel c).state = .waiting
    t.port = (s.withResult .accepted).port ∧ t.station = { s.station with state := .leaving } ∧
    { t with engine := s.engine, notices := s.notices, port := s.port, station := s.station } = s ∧
    t.engine.lastServed = s.engine.lastServed ∧
    (∀ c, ¬ working c → t.channel c = s.channel c) ∧
    (∀ c, working c →
      ((s.channel c).pausedAtTolerated = false →
        ∃ n ≤ (s.channel c).nextSegment, (∀ k, s.endsWith c k → n ≤ (s.tag k).segment) ∧
          (n = (s.channel c).nextSegment ∨ ∃ k, s.endsWith c k ∧ (s.tag k).segment = n) ∧
          t.channel c = { (s.channel c).left with
            state := .failing, haltError := some .left, haltDetail := HaltDetail.none, resumeSegment := some n }) ∧
      ((s.channel c).pausedAtTolerated = true → t.channel c = { (s.channel c).left with
        state := .failing, haltError := some .left, haltDetail := HaltDetail.none, resumeSegment := some 0
        entryIndex := (s.channel c).entryIndex + 1, entryUnbegun := true })) ∧
    (∀ c k, working c → s.endsWith c k → t.tag k = s.releasedTag k) ∧
    (∀ k, (∀ c, working c → ¬ s.endsWith c k) → t.tag k = s.tag k) ∧
    t.notices = { s.notices with queue := t.notices.queue } ∧ t.notices.queue.length = s.notices.queue.length ∧
    ∀ (i : Nat) (n : QueuedNotice), s.notices.queue[i]? = some n →
      (∀ c, n.origin = .channel c → working c → t.notices.queue[i]? = some { n with origin := .detached }) ∧
      ((∀ c, n.origin = .channel c → ¬ working c) → t.notices.queue[i]? = some n)

/-- R148, R149: the listening timer of a LISTENING station expires. A try of a presence on the line is one of a presence
replaced; nothing else changes on the trunk. -/
def Obligations.ListeningTimerExpiry : Prop :=
  ∀ s : State, s.station.state = .listening → s.station.listeningTimer ≠ .stopped →
    ∃ t, exec .listeningTimerExpiry s = .next t ∧
      t.station.state = .joined ∧ t.station.listeningTimer = .stopped ∧ t.station.fresh = true ∧
      t.station.events = s.station.events ++ [.joined] ∧ s.PresenceMade t false ∧
      t.station.presenceTimer = .running s.station.config.presenceInterval.toNat ∧
      (∀ a, t.peer a = s.peer a) ∧ t.station.config = s.station.config ∧ s.SameWork t ∧ t.engine = s.engine ∧
      t.responder = s.responder ∧ t.port = s.port ∧ t.trunk = { s.trunk with line := s.trunk.line.map Try.replaced }

/-- R149: the presence timer of a JOINED or LEAVING station expires: an ordinary presence is made and the timer starts
again, unless the farewell is pending. A try of a presence on the line is one of a presence replaced; nothing else changes
on the trunk. -/
def Obligations.PresenceTimerExpiry : Prop :=
  ∀ s : State, s.station.state = .joined ∨ s.station.state = .leaving → s.station.presenceTimer ≠ .stopped →
    (s.station.farewellOffered = false → ∃ t, exec .presenceTimerExpiry s = .next t ∧ s.PresenceMade t false ∧
      t.station = { s.station with
        pending := t.station.pending
        presenceTimer := .running s.station.config.presenceInterval.toNat } ∧
      s.SameWork t ∧ t.engine = s.engine ∧ t.responder = s.responder ∧ t.port = s.port ∧
      t.trunk = { s.trunk with line := s.trunk.line.map Try.replaced }) ∧
    (s.station.farewellOffered = true → exec .presenceTimerExpiry s = .next s)

/-- R149, R158: the farewell is offered when the drain condition holds. A try of a presence on the line is one of a
presence replaced; nothing else changes on the trunk. -/
def Obligations.FarewellOffer : Prop :=
  ∀ s : State, s.station.state = .leaving → s.station.farewellOffered = false →
    (∀ c, (s.channel c).state = .idle ∨ (s.channel c).state = .halted) → s.responder.queue = [] →
    s.trunk.replies = [] → s.notices.queue = [] →
    ∃ t, exec .farewellOffer s = .next t ∧ s.PresenceMade t true ∧
      t.station = { s.station with
        pending := t.station.pending, presenceTimer := .stopped, farewellOffered := true } ∧
      s.SameWork t ∧ t.engine = s.engine ∧ t.responder = s.responder ∧ t.port = s.port ∧
      t.trunk = { s.trunk with line := s.trunk.line.map Try.replaced }

/-- R154, R155, R118, R70, R77, R81: the silence timer of a PRESENT peer expires. Its entry goes ABSENT; each tag towards
it that is QUEUED, SENT or BACKOFF and not completing ends with PEER_LOST, and its owner does with that what its state
and disposition give; its memo is emptied, the memo writes of its queued items are no longer due, and PEER_LOST(SILENT)
is offered. That the tags end in rising tag number is the model's choice (log entry 39), and so is that a sweep READ's
record takes its header's place from the tag (log entry 14); that the silence timer of an entry that goes ABSENT stops is
read from R154 (log entry 31). -/
def Obligations.SilenceTimerExpiry : Prop :=
  ∀ (i : Fin 40) (s : State), (s.peer i).present = true → (s.peer i).silence ≠ .stopped →
    ∃ t, exec (.silenceTimerExpiry (i.val + 1)) s = .next t ∧
      (t.peer i).present = false ∧ (t.peer i).silence = .stopped ∧ (∀ j, j ≠ i → t.peer j = s.peer j) ∧
      t.memo i = none ∧ (∀ j, j ≠ i → t.memo j = s.memo j) ∧
      (∀ item ∈ t.responder.queue, item.source = i.val + 1 → item.memoDue = false) ∧
      t.responder.queue.length = s.responder.queue.length ∧
      (∀ k, (s.tag k).owner ≠ none → (s.tag k).target = i.val + 1 → (t.tag k).state = .queued ∨ (t.tag k).state = .sent →
        (t.tag k).completing = true) ∧
      t.writer = (offerDroppable (.peerLost (i.val + 1) .silent) s).writer ∧
      t.counters = (offerDroppable (.peerLost (i.val + 1) .silent) s).counters ∧
      t.station = { s.station with roster := t.station.roster } ∧ t.listStore = s.listStore ∧ t.port = s.port ∧
      ∃ u, State.PeerLost i (s.setPeer i (t.peer i)) u ∧ t = offerDroppable (.peerLost (i.val + 1) .silent) u

/-- R70, R118, R145, R153, R155: a presence frame that passes the receive checks. In OFFLINE and EXCLUDED, where no peer
is PRESENT, it is discarded; else it is taken by the entry of its source in the roster. A peer that leaves or has
restarted is lost: its tags end with PEER_LOST, in rising tag number (the model's choice, log entry 39), its memo is
emptied, and the memo writes of its queued items are no longer due. That a sweep READ's record takes its header's place
from the tag is the model's choice (log entry 14). That the silence timer of an entry that goes ABSENT stops is read from
R153 and R154 by inference, which change the state alone (log entry 31). -/
def Obligations.PresenceArrival : Prop :=
  ∀ (bytes : List Byte) (i : Fin 40) (s : State), s.trunk.line = none → receiveChecks bytes = true →
    kindOf bytes = some .presence → sourceOf bytes = i.val + 1 → sourceOf bytes ≠ s.ownAddress →
    let p := presenceOf bytes
    let received : Instr := .receiveFrame ⟨bytes, s.station.config.rate, false⟩
    let joined := Event.peerJoined (i.val + 1) p.incarnation
    (s.station.state = .offline ∨ s.station.state = .excluded →
      exec received s = .next (restartSilence (sourceOf bytes) s) ∧ (s.StationSound → exec received s = .next s)) ∧
    (s.station.state = .listening ∨ s.station.state = .joined ∨ s.station.state = .leaving →
      ((s.peer i).present = false → p.leaving = true → exec received s = .next s) ∧
      ((s.peer i).present = false → p.leaving = false →
        exec received s = .next (offerDroppable joined (s.setPeer i p.peer))) ∧
      ((s.peer i).present = true → p.leaving = true → ∃ t, exec received s = .next t ∧
        (t.peer i).present = false ∧ (t.peer i).silence = .stopped ∧ t.memo i = none ∧
        (∀ j, j ≠ i → t.peer j = s.peer j) ∧
        t.writer = (offerDroppable (.peerLost (i.val + 1) .leaving) s).writer ∧
        ∃ u, State.PeerLost i (s.setPeer i (t.peer i)) u ∧ t = offerDroppable (.peerLost (i.val + 1) .leaving) u) ∧
      ((s.peer i).present = true → p.leaving = false → p.fresh = true ∨ (s.peer i).incarnation ≠ p.incarnation →
        ∃ t, exec received s = .next t ∧ t.peer i = p.peer ∧ t.memo i = none ∧
        (∀ j, j ≠ i → t.peer j = s.peer j) ∧
        t.writer = (offerDroppable joined (offerDroppable (.peerLost (i.val + 1) .restarted) s)).writer ∧
        ∃ u, State.PeerLost i (s.setPeer i p.peer) u ∧
          t = offerDroppable joined (offerDroppable (.peerLost (i.val + 1) .restarted) u)) ∧
      ((s.peer i).present = true → p.leaving = false → p.fresh = false → (s.peer i).incarnation = p.incarnation →
        exec received s = .next (s.setPeer i p.peer)))

/-- R45, R73, R89, R126, R132, R148, R160, R166, R168, R169, R170, R173, R174: an address conflict. At the reception of a
frame with the own source, the station state alone decides. At the end of a try, by an intact echo with the own source
that is not the frame sent, the end of the try comes first: a frame still offered keeps its place before its fourth try,
and is abandoned and counted at it; the rotation's pointer moves past the tag of a request withdrawn, and is kept else.
Then a JOINED or LEAVING station is EXCLUDED, a LISTENING station's join fails, and an OFFLINE or EXCLUDED one is not
affected. Read from the rules by inference: that the echo of a withdrawn or replaced frame's try is still judged for a
conflict, and that the end of the try is acted on first (log entry 20); that the discarded item which executes stays at
the head of the queue (log entry 30); that a tag's completing field is cleared with the write that it marks (log entry
40). That the record of a sweep READ abandoned at its fourth try takes its header's place from the tag is the model's
choice (log entry 14). -/
def Obligations.Exclusion : Prop :=
  ∀ (i : Instr) (s : State), s.MeetsConflict i →
    let ended (pointer : Fin 16) : State := { s with trunk := { s.trunk with line := none, pointer := pointer } }
    let conflict (u : State) : Prop := ∃ t, exec i s = .next t ∧ State.ConflictTaken u t
    (∀ frame, i = .receiveFrame frame → conflict s) ∧
    ∀ echo f bytes fate, i = .tryEnd echo → s.trunk.line = some ⟨f, bytes, fate, false⟩ →
      (fate = .live → s.triesOf f < 4 → conflict (ended s.trunk.pointer)) ∧
      (fate = .live → 4 ≤ s.triesOf f → ∃ u, State.FrameAbandoned f (ended s.trunk.pointer) u ∧ conflict u) ∧
      (∀ k, fate = .withdrawn → f = .request k → conflict (ended (k + 1))) ∧
      (fate = .withdrawn → (∀ k, f ≠ .request k) → conflict (ended s.trunk.pointer)) ∧
      (fate = .replaced → conflict (ended s.trunk.pointer))

/-! ## Windows -/

/-- R119, R149, R151, R195: WINDOW_SET. With a presence made of the new mask, a try of a presence on the line is one of a
presence replaced. -/
def Obligations.WindowSetEffect : Prop :=
  ∀ s : State, s.port.executing = none →
    let a := s.port.arguments
    let outOfRange : Prop := 15 < field a[0] 0 5 ∨ field a[0] 5 2 = 0 ∨ field a[1] 0 2 ≠ 0 ∨
      (bit a[0] 7 = true ∧ field a[2] 0 2 ≠ 0)
    (outOfRange → exec .windowSet s = .next (s.withResult .badArg)) ∧
    ∀ w : Fin 16, ¬ outOfRange → field a[0] 0 5 = w.val →
      ((s.window w).state ≠ .closed → exec .windowSet s = .next (s.withResult .badState)) ∧
      ((s.window w).state = .closed → (s.window w).events ≠ [] → exec .windowSet s = .next (s.withResult .busy)) ∧
      ((s.window w).state = .closed → (s.window w).events = [] → ∃ t, exec .windowSet s = .next t ∧
        t.port = (s.withResult .done).port ∧
        (t.window w).state = .opened ∧
        [Access.readOnly, .writeOnly, .readWrite][field a[0] 5 2 - 1]? = some (t.window w).access ∧
        (t.window w).paired = bit a[0] 7 ∧ (t.window w).baseA = a[1] ∧ (t.window w).baseB = a[2] ∧
        (t.window w).size = (if field a[0] 16 16 = 0 then 65536 else field a[0] 16 16) ∧
        (∀ n, 1 ≤ n → n ≤ 32 → (t.window w).permits n = bit a[3] (n - 1)) ∧
        (∀ n, 33 ≤ n → n ≤ 40 → (t.window w).permits n = bit a[0] (n - 25)) ∧
        (t.window w).published = .a ∧ (t.window w).holdPending = false ∧ (t.window w).flipPending = false ∧
        (t.window w).events = [] ∧ (∀ v, v ≠ w → t.window v = s.window v) ∧
        (s.onTrunk = true → s.station.farewellOffered = false → s.PresenceMade t false ∧
          t.station = { s.station with
            pending := t.station.pending
            presenceTimer := .running s.station.config.presenceInterval.toNat } ∧
          t.trunk = { s.trunk with line := s.trunk.line.map Try.replaced }) ∧
        (s.onTrunk = false ∨ s.station.farewellOffered = true → t.station = s.station ∧ t.trunk = s.trunk) ∧
        t.listStore = s.listStore ∧ t.engine = s.engine ∧ t.memory = s.memory ∧ t.notices = s.notices ∧
        t.counters = s.counters ∧ t.writer = s.writer ∧ t.responder.queue = s.responder.queue ∧
        t.responder.execution = s.responder.execution ∧ t.responder.memos = s.responder.memos)

/-- R124: the completion conditions of a window, tested in order: hold, flip, close. -/
def Obligations.WindowCompletionConditions : Prop :=
  ∀ (i : Fin 16) (s : State),
    let w := s.window i
    let drained : Prop := s.inWork i .a = 0 ∧ s.inWork i .b = 0
    ∃ t, exec (.windowCompletion i) s = .next t ∧
      (t.window i).events = w.events ++
        (if w.holdPending = true ∧ w.heldRaised = false ∧ drained then [.windowHeld i] else []) ++
        (if w.flipPending = true ∧ w.flippedRaised = false ∧ s.inWork i w.published.other = 0 then
          [.windowFlipped i w.published] else []) ++
        (if w.state = .closing ∧ drained then [.windowClosed i] else []) ∧
      (t.window i).state = (if w.state = .closing ∧ drained then .closed else w.state) ∧
      t = s.setWindow i { w with events := (t.window i).events, state := (t.window i).state }

/-- R120, R121, R122: HOLD, RELEASE and FLIP by the window's state; each accepted HOLD and FLIP tests completion at once.
-/
def Obligations.HoldReleaseFlip : Prop :=
  ∀ s : State, s.port.executing = none →
    let n := field s.port.arguments[0] 0 8
    (15 < n → ∀ c ∈ [Instr.hold, .release, .flip, .close], exec c s = .next (s.withResult .badArg)) ∧
    ∀ i : Fin 16, i.val = n →
      let w := s.window i
      (w.state ≠ .opened → exec .hold s = .next (s.withResult .badState)) ∧
      (w.state = .opened → exec .hold s =
        .next ((s.setWindow i (({ w with state := .held, holdPending := true } : Window).complete i (s.inWork i))).withResult
          .accepted)) ∧
      (w.state ≠ .held → exec .release s = .next (s.withResult .badState)) ∧
      (w.state = .held → w.holdPending = true → exec .release s = .next (s.withResult .busy)) ∧
      (w.state = .held → w.holdPending = false → exec .release s =
        .next ((s.setWindow i { w with state := .opened }).withResult .done)) ∧
      (w.paired = false ∨ w.advertised = false → exec .flip s = .next (s.withResult .badState)) ∧
      (w.paired = true → w.advertised = true → w.flipPending = true → exec .flip s = .next (s.withResult .busy)) ∧
      (w.paired = true → w.advertised = true → w.flipPending = false → exec .flip s =
        .next ((s.setWindow i (({ w with published := w.published.other, flipPending := true } : Window).complete i
          (s.inWork i))).withResult .accepted))

/-- R123, R124, R149, R151: CLOSE by the window's state. With a presence made of the new mask, a try of a presence on the
line is one of a presence replaced. -/
def Obligations.CloseEffect : Prop :=
  ∀ (s : State) (i : Fin 16), s.port.executing = none → field s.port.arguments[0] 0 8 = i.val →
    let w := s.window i
    (w.state = .closed → exec .close s = .next (s.withResult .badState)) ∧
    (w.state = .closing → exec .close s = .next (s.withResult .busy)) ∧
    (w.state = .opened ∨ w.state = .held → ∃ t, exec .close s = .next t ∧
      t.port = (s.withResult .accepted).port ∧
      t.window i = ({ w with state := .closing } : Window).complete i (s.inWork i) ∧
      (t.window i).advertised = false ∧ (∀ j, j ≠ i → t.window j = s.window j) ∧
      (s.onTrunk = true → s.station.farewellOffered = false → s.PresenceMade t false ∧
        t.station = { s.station with
          pending := t.station.pending
          presenceTimer := .running s.station.config.presenceInterval.toNat } ∧
        t.trunk = { s.trunk with line := s.trunk.line.map Try.replaced }) ∧
      (s.onTrunk = false ∨ s.station.farewellOffered = true → t.station = s.station ∧ t.trunk = s.trunk) ∧
      t.listStore = s.listStore ∧ t.engine = s.engine ∧ t.memory = s.memory ∧ t.notices = s.notices ∧
      t.counters = s.counters ∧ t.writer = s.writer ∧ t.responder.queue = s.responder.queue ∧
      t.responder.execution = s.responder.execution ∧ t.responder.memos = s.responder.memos)

/-! ## Notices and bookings -/

/-- R139, R195: BOOK. -/
def Obligations.BookEffect : Prop :=
  ∀ s : State, s.port.executing = none →
    let a := s.port.arguments
    let outOfRange : Prop := 15 < field a[0] 0 8 ∨ 40 < field a[0] 8 8 ∨ field a[0] 16 8 = 0 ∨
      (bit a[0] 25 = true ∧ (3 < field a[1] 0 8 ∨ 1023 < field a[1] 16 16)) ∨
      (field a[0] 28 2 ≠ 1 ∧ field a[0] 28 2 ≠ 2)
    (outOfRange → exec .book s = .next (s.withResult .badArg)) ∧
    ∀ b : Fin 16, ¬ outOfRange → field a[0] 0 8 = b.val →
      let waiting : Prop := ∃ c, (s.channel c).state = .waiting ∧ (s.channel c).waitBooking = some b
      (waiting → exec .book s = .next (s.withResult .busy)) ∧
      (¬ waiting → exec .book s = .next ((s.setBooking b {
        state := .armed
        filter := if field a[0] 8 8 = 0 then none else some (field a[0] 8 8)
        code := field a[0] 16 8
        post := bit a[0] 24, start := bit a[0] 25, release := bit a[0] 26
        startChannel := field a[1] 0 8, startEntry := field a[1] 16 16
        once := decide (field a[0] 28 2 = 1), matchCount := 0, latch := false }).withResult .done))

/-- R140, R195: UNBOOK. The state, match count, latch and the waiting flag, as they stand at the command, are returned in
argument 1. -/
def Obligations.UnbookEffect : Prop :=
  ∀ s : State, s.port.executing = none →
    let a := s.port.arguments
    (15 < field a[0] 0 8 ∨ (field a[0] 8 8 ≠ 1 ∧ field a[0] 8 8 ≠ 2) → exec .unbook s = .next (s.withResult .badArg)) ∧
    ∀ b : Fin 16, field a[0] 0 8 = b.val →
      let waiting : Prop := ∃ c, (s.channel c).state = .waiting ∧ (s.channel c).waitBooking = some b
      ∃ v : Word,
        field v 0 2 = (match (s.booking b).state with | .free => 0 | .armed => 1 | .spent => 2) ∧
        bit v 8 = (s.booking b).latch ∧ (bit v 9 = true ↔ waiting) ∧
        ((s.booking b).matchCount < 65536 → field v 16 16 = (s.booking b).matchCount) ∧
        (field a[0] 8 8 = 1 → exec .unbook s =
          .next { s with port := { s.port with arguments := a.set 1 v, result := .done } }) ∧
        (field a[0] 8 8 = 2 → waiting → exec .unbook s =
          .next { s with port := { s.port with arguments := a.set 1 v, result := .busy } }) ∧
        (field a[0] 8 8 = 2 → ¬ waiting → exec .unbook s =
          .next { s.setBooking b { s.booking b with state := .free, matchCount := 0, latch := false } with
            port := { s.port with arguments := a.set 1 v, result := .done } })

/-- R131: NOTICE. -/
def Obligations.NoticeCommandEffect : Prop :=
  ∀ s : State, s.port.executing = none →
    let a := s.port.arguments[0]
    (40 < field a 0 8 ∨ field a 8 8 = 0 → exec .notice s = .next (s.withResult .badArg)) ∧
    (field a 0 8 ≤ 40 → field a 8 8 ≠ 0 →
      (s.station.state ≠ .joined → exec .notice s = .next (s.withResult .badState)) ∧
      (s.station.state = .joined → 4 ≤ s.notices.queue.length → exec .notice s = .next (s.withResult .busy)) ∧
      (s.station.state = .joined → s.notices.queue.length < 4 → exec .notice s = .next (State.withResult { s with
        notices := { s.notices with queue := s.notices.queue ++ [{
          destination := field a 0 8, code := field a 8 8, argument := field a 16 16, origin := .host, tries := 0 }] } }
        .done)))

/-! ## The trunk -/

/-- R165, R166, R167, R168: a contention slot. The selector's choice is the head reply, else the pending presence, else
the head notice, else, with the yield flag clear, a QUEUED request: one whose try has failed, which keeps its turn ahead
of the others (that it does so also where one between the pointer and it is QUEUED later is read from R166 by inference,
log entry 35), else the first from the pointer (that this holds also where it breaks the order of issue that R13 names is
read from R166 by inference, log entry 34); the station wins when no other station's key is lower, and loses to a lower
one with nothing changed; a slot in which no station contends is quiet and clears the yield flag. -/
def Obligations.ContentionSlotEffect : Prop :=
  ∀ (rival : Option Byte) (s : State), s.trunk.line = none → s.onTrunk = true →
    let wins (cls : Nat) : Prop := ∀ r, rival = some r → 64 * cls + s.ownAddress ≤ r.toNat
    (∀ r rest, s.trunk.replies = r :: rest →
      (wins 0 → exec (.contentionSlot rival) s = .next { s with trunk := { s.trunk with
        line := some ⟨.reply, s.replyFrame r.reply, .live, false⟩
        replies := { r with tries := r.tries + 1 } :: rest } }) ∧
      (¬ wins 0 → exec (.contentionSlot rival) s = .next s)) ∧
    (∀ p, s.trunk.replies = [] → s.station.pending = some p →
      (wins 1 → exec (.contentionSlot rival) s = .next { s with
        trunk := { s.trunk with line := some ⟨.presence p.fresh, s.presenceFrame p, .live, false⟩ }
        station := { s.station with pending := some { p with tries := p.tries + 1 } } }) ∧
      (¬ wins 1 → exec (.contentionSlot rival) s = .next s)) ∧
    (∀ n rest, s.trunk.replies = [] → s.station.pending = none → s.notices.queue = n :: rest →
      (wins 2 → exec (.contentionSlot rival) s = .next { s with
        trunk := { s.trunk with
          line := some ⟨.notice n.destination ⟨s.ownAddress, n.code, n.argument⟩, s.noticeFrame n, .live, false⟩ }
        notices := { s.notices with queue := { n with tries := n.tries + 1 } :: rest } }) ∧
      (¬ wins 2 → exec (.contentionSlot rival) s = .next s)) ∧
    (∀ k : Fin 16, s.trunk.replies = [] → s.station.pending = none → s.notices.queue = [] → s.trunk.yielding = false →
      let offered (j : Fin 16) : Prop := (s.tag j).state = .queued ∧ (s.tag j).completing = false
      let before (j : Fin 16) : Prop := (j - s.trunk.pointer).val < (k - s.trunk.pointer).val
      offered k →
      (0 < (s.tag k).tries ∧ ∀ j, before j → offered j → (s.tag j).tries = 0) ∨
        ((∀ j, offered j → (s.tag j).tries = 0) ∧ ∀ j, before j → ¬ offered j) →
      (wins 3 → exec (.contentionSlot rival) s =
        .next { s.setTag k { s.tag k with tries := (s.tag k).tries + 1, onLine := true } with
          trunk := { s.trunk with line := some ⟨.request k, s.requestFrame k, .live, false⟩, yielding := true } }) ∧
      (¬ wins 3 → exec (.contentionSlot rival) s = .next s)) ∧
    (s.trunk.replies = [] → s.station.pending = none → s.notices.queue = [] →
      (s.trunk.yielding = true ∨ ∀ k, (s.tag k).onOffer = false) →
      (rival = none → exec (.contentionSlot rival) s =
        .next { s with trunk := { s.trunk with yielding := false } }) ∧
      (rival ≠ none → exec (.contentionSlot rival) s = .next s))

/-- R20, R32, R56, R116, R130, R149, R150, R159, R166, R168, R169, R170: a try ends with its complete echo. Of a frame
still offered: a request's tag goes SENT with its deadline of D and the rotation moves past it; a reply leaves the queue;
a presence leaves, clearing fresh if it carried the flag, and the farewell returns the station to OFFLINE; a notice
leaves the queue, and a channel that placed it has finished its entry. Of a frame withdrawn, only the rotation moves; of
a presence replaced, the echo acts on the fresh flag. That an own notice to all stations or to this one is kept until it
is heard, and may be heard before its try has ended, is read from R21 by inference (log entry 10). -/
def Obligations.TryEndComplete : Prop :=
  ∀ (bytes : List Byte) (s : State),
    let ended : State := { s with trunk := { s.trunk with line := none } }
    (∀ k, s.trunk.line = some ⟨.request k, bytes, .live, false⟩ → exec (.tryEnd bytes) s =
      .next { s.setTag k { s.tag k with state := .sent, timer := .running s.station.config.replyDeadline.toNat } with
        trunk := { s.trunk with line := none, pointer := k + 1 } }) ∧
    (s.trunk.line = some ⟨.reply, bytes, .live, false⟩ → exec (.tryEnd bytes) s =
      .next { s with trunk := { s.trunk with line := none, replies := s.trunk.replies.tail } }) ∧
    (∀ fresh p, s.trunk.line = some ⟨.presence fresh, bytes, .live, false⟩ → s.station.pending = some p →
      (p.leaving = false → exec (.tryEnd bytes) s =
        .next { ended with station := { s.station with pending := none, fresh := s.station.fresh && !p.fresh } }) ∧
      (p.leaving = true → ∃ t, exec (.tryEnd bytes) s = .next t ∧ State.ReturnedOffline .left ended t)) ∧
    (∀ destination arrival heard n rest, s.trunk.line = some ⟨.notice destination arrival, bytes, .live, heard⟩ →
      s.notices.queue = n :: rest →
      let reported : State := { ended with notices := { s.notices with
        queue := rest
        ownEchoes := s.notices.ownEchoes ++
          (if heard = false ∧ (destination = 0 ∨ destination = s.ownAddress) then [arrival] else []) } }
      (n.origin = .host ∨ n.origin = .detached → exec (.tryEnd bytes) s = .next reported) ∧
      (∀ c, n.origin = .channel c → (s.channel c).state = .running → (s.channel c).noticeWait = .echo →
        ∃ t, exec (.tryEnd bytes) s = .next t ∧
          State.EntryFinished c (reported.setChannel c { s.channel c with noticeWait := .absent }) t)) ∧
    (∀ k heard, s.trunk.line = some ⟨.request k, bytes, .withdrawn, heard⟩ → exec (.tryEnd bytes) s =
      .next { s with trunk := { s.trunk with line := none, pointer := k + 1 } }) ∧
    (∀ f heard, (∀ k, f ≠ .request k) → s.trunk.line = some ⟨f, bytes, .withdrawn, heard⟩ →
      exec (.tryEnd bytes) s = .next ended) ∧
    (∀ fresh heard, s.trunk.line = some ⟨.presence fresh, bytes, .replaced, heard⟩ → exec (.tryEnd bytes) s =
      .next { ended with station := { s.station with fresh := s.station.fresh && !fresh } })

/-- R20, R39, R41, R56, R57, R63, R66, R68, R71, R77, R79, R81, R82, R86, R130, R150, R168, R169: a try of a frame still
offered ends without its complete echo and without an address conflict. Before the fourth try nothing but the line
changes; at the fourth, the frame is abandoned and counted. A reply leaves the queue; a presence leaves, and the
farewell's end returns the station to OFFLINE; a notice leaves, NOTICE_SEND_FAILED for the host, LINK for a channel,
nothing when DETACHED; a request's attempt ends with LINK, unanswered, whoever owns its tag: a STOPPING channel's tag is
released, a FAILING channel takes the outcome as final, and a RUNNING one by its disposition. That a sweep READ's record
takes its header's place from the tag, the channel's own field going absent with it, is the model's choice (log entry
14); R95 and R193 give the record and its code. -/
def Obligations.TryEndFailed : Prop :=
  ∀ (f : TryFrame) (bytes echo : List Byte) (s : State), s.trunk.line = some ⟨f, bytes, .live, false⟩ → echo ≠ bytes →
    (checkGood echo = false ∨ sourceOf echo ≠ s.ownAddress) →
    let ended : State := { s with trunk := { s.trunk with line := none } }
    let counted : State := { ended with
      counters := { s.counters with abandonedFrames := min (s.counters.abandonedFrames + 1) 65535 } }
    (s.triesOf f < 4 → exec (.tryEnd echo) s = .next ended) ∧
    (4 ≤ s.triesOf f → ∃ t, exec (.tryEnd echo) s = .next t ∧ State.FrameAbandoned f ended t) ∧
    (4 ≤ s.triesOf f → f = .reply → exec (.tryEnd echo) s = .next { counted with
      trunk := { counted.trunk with replies := s.trunk.replies.tail } }) ∧
    (∀ fresh p, 4 ≤ s.triesOf f → f = .presence fresh → s.station.pending = some p →
      (p.leaving = false → exec (.tryEnd echo) s = .next { counted with station := { s.station with pending := none } }) ∧
      (p.leaving = true → ∃ t, exec (.tryEnd echo) s = .next t ∧ State.ReturnedOffline .left counted t)) ∧
    (∀ destination arrival n rest, 4 ≤ s.triesOf f → f = .notice destination arrival → s.notices.queue = n :: rest →
      let left : State := { counted with notices := { s.notices with queue := rest } }
      (n.origin = .detached → exec (.tryEnd echo) s = .next left) ∧
      (n.origin = .host → exec (.tryEnd echo) s =
        .next (offerDroppable (.noticeSendFailed n.code n.destination) left)) ∧
      (∀ c, n.origin = .channel c → (s.channel c).state = .running → (s.channel c).noticeWait = .echo →
        ∃ t, exec (.tryEnd echo) s = .next t ∧ (t.channel c).noticeWait = .absent ∧
          ((s.channel c).captured.disposition = some .tolerant → (t.channel c).state = .running ∧
            (t.channel c).heldSlot = some (.chTolerated c (s.channel c).entryIndex ((s.channel c).tolerated + 1)
              (some .link))) ∧
          ((s.channel c).captured.disposition ≠ some .tolerant → (t.channel c).state = .failing ∧
            (t.channel c).haltError = some .link ∧ (t.channel c).haltDetail = HaltDetail.none ∧
            (t.channel c).resumeSegment = some 0) ∧
          (∀ d, d ≠ c → t.channel d = s.channel d) ∧ t.counters = counted.counters ∧ t.station = s.station ∧
          t.writer = s.writer ∧ t.trunk = counted.trunk)) ∧
    (∀ k c, 4 ≤ s.triesOf f → f = .request k → (s.tag k).owner = some c → (s.channel c).state = .running →
      let tag := s.tag k
      let ch := s.channel c
      let e := ch.captured
      let passed : State := { counted with trunk := { counted.trunk with pointer := k + 1 } }
      let cooling : Tag := { tag with
        state := .cooling, owner := none, completing := false, unanswered := true, lastOutcome := some .link
        timer := .running (2 * s.station.config.replyDeadline.toNat) }
      let halted (error : HaltError) (status : Option Nat) : Prop := ∃ t, exec (.tryEnd echo) s = .next t ∧
        t.trunk = passed.trunk ∧ t.counters = counted.counters ∧ (t.channel c).state = .failing ∧
        (t.channel c).haltError = some error ∧ (t.channel c).haltDetail = ⟨some tag.target, status, none⟩ ∧
        (∃ n ≤ tag.segment, (t.channel c).resumeSegment = some n) ∧ t.tag k = cooling ∧
        (∀ d, d ≠ c → t.channel d = s.channel d) ∧ t.station = s.station ∧ t.responder = s.responder ∧
        t.listStore = s.listStore ∧ t.writer = s.writer
      let tolerated : Channel := { ch with
        completed := ch.completed + 1, tolerated := ch.tolerated + 1, lastTolerated := some .link }
      (tag.sweep = false → e.disposition = some .strict →
        (tag.operation ≠ .claim → halted .link none) ∧ (tag.operation = .claim → halted .uncertain (some 0x0C))) ∧
      (tag.sweep = false → e.disposition = some .tolerant →
        (ch.completed + 1 < e.segments → exec (.tryEnd echo) s =
          .next ((passed.setTag k cooling).setChannel c tolerated)) ∧
        (e.segments ≤ ch.completed + 1 → ∃ t, exec (.tryEnd echo) s = .next t ∧
          State.EntryFinished c ((passed.setTag k cooling).setChannel c tolerated) t)) ∧
      (tag.sweep = false → e.disposition = some .persist →
        (tag.attempts < e.limit → exec (.tryEnd echo) s = .next (passed.setTag k { tag with
          state := .backoff, unanswered := true, lastOutcome := some .link
          timer := .running s.station.config.retryInterval.toNat })) ∧
        (e.limit ≤ tag.attempts → (tag.operation ≠ .claim → halted .persistExhausted (some 0x0C)) ∧
          (tag.operation = .claim → halted .uncertain (some 0x0C)))) ∧
      (tag.sweep = true → tag.operation ≠ .read → exec (.tryEnd echo) s =
        .next ((passed.setTag k cooling).setChannel c { tolerated with sweepCursor := tag.target + 1 })) ∧
      (∀ header, tag.sweep = true → tag.operation = .read → tag.header = some header → exec (.tryEnd echo) s =
        .next ((passed.setTag k { tag with
          completing := true, unanswered := true, lastOutcome := some .link, timer := .stopped }).setChannel c { ch with
            sweepHeader := none
            writes := ch.writes ++ [{
              tag := some k, segment := tag.segment, record := some ⟨tag.target, .link, []⟩
              stage := .writing [⟨header, header, [place tag.target 0 ||| place 0x0C 8]⟩], begun := false }] })))

/-- R29, R133, R135, R136, R137, R138, R145: a notice handed to the notice unit, from the trunk or by the echo of an own
notice. In OFFLINE, LISTENING and EXCLUDED it is discarded: no booking changes and no event is raised. In JOINED and
LEAVING, every booking that matches counts it and, in mode ONCE, is SPENT; a booking that does not match keeps everything
but, if a channel that goes on consumes it, its latch; a channel that no matching booking starts or releases is
unchanged. Where one booking matches: it is counted and posted; START makes an IDLE channel of a JOINED station RUNNING,
to begin its entry when the rest is done, and else raises START_MISSED; RELEASE releases every channel that waits on the
booking, or sets its latch. That an own notice may be evaluated before or after its try has ended is read from R21 (log
entry 10); that a released channel begins its next entry inside the evaluation, before a booking in mode ONCE is SPENT,
is read from R34 and R137 by inference (log entry 19); that several channels are released in the order of their numbers
is the model's choice (log entry 36). -/
def Obligations.NoticeEvaluation : Prop :=
  ∀ (n : NoticeArrival) (s : State),
    let starts (b : Fin 16) (c : Fin 4) : Prop := (s.booking b).start = true ∧ (s.booking b).startChannel = c.val ∧
      s.station.state = .joined ∧ (s.channel c).state = .idle
    let waits (b : Fin 16) (c : Fin 4) : Prop := (s.channel c).state = .waiting ∧ (s.channel c).waitBooking = some b
    let effect (u t : State) : Prop :=
      (∀ b, (s.booking b).matchesArrival n = true →
        (t.booking b).matchCount = min ((s.booking b).matchCount + 1) 65535 ∧
        (t.booking b).state = if (s.booking b).once then .spent else .armed) ∧
      (∀ b, (s.booking b).matchesArrival n = false →
        { t.booking b with latch := false } = { s.booking b with latch := false }) ∧
      (∀ c, (∀ b, (s.booking b).matchesArrival n = true → ¬ starts b c ∧ ¬ ((s.booking b).release = true ∧ waits b c)) →
        t.channel c = s.channel c) ∧
      (∀ b, (s.booking b).matchesArrival n = true → (∀ j, j ≠ b → (s.booking j).matchesArrival n = false) →
        ((s.booking b).start = true → (s.booking b).startChannel < 4) →
        let counted := u.setBooking b { s.booking b with matchCount := min ((s.booking b).matchCount + 1) 65535 }
        let posted := if (s.booking b).post then offerDroppable (.noticeSeen b n.source n.code n.argument) counted else counted
        ∃ v w : State,
          ((s.booking b).start = false → v = posted) ∧
          (∀ c, starts b c → v = posted.setChannel c { s.channel c with
            state := .running, startSource := .booking b, haltError := none, haltDetail := HaltDetail.none
            resumeSegment := none }) ∧
          (∀ c : Fin 4, (s.booking b).start = true → (s.booking b).startChannel = c.val → ¬ starts b c →
            v = offerDroppable (.startMissed b c) posted) ∧
          ((s.booking b).release = false → w = v) ∧
          ((s.booking b).release = true → (∀ c, ¬ waits b c) → w = v.setBooking b { v.booking b with latch := true }) ∧
          ((s.booking b).release = true → (∃ c, waits b c) → ∃ l : List (Fin 4), (∀ c, c ∈ l ↔ waits b c) ∧
            l.Pairwise (· < ·) ∧ State.ChannelsReleased l v w) ∧
          let spent := if (s.booking b).once then w.setBooking b { w.booking b with state := .spent } else w
          (∀ c, starts b c → State.EntryBegun c (s.booking b).startEntry spent t) ∧
          ((∀ c, ¬ starts b c) → t = spent)) ∧
      t.listStore = s.listStore ∧ t.port = s.port ∧ t.responder = s.responder ∧ t.memory = s.memory ∧
      t.station = u.station
    let taken (i : Instr) (u : State) : Prop :=
      (s.onTrunk = true → ∃ t, exec i s = .next t ∧ effect u t ∧ t.notices.ownEchoes = u.notices.ownEchoes) ∧
      (s.onTrunk = false → exec i s = .next u)
    (∀ rest echo, s.notices.ownEchoes = n :: rest →
      taken (.ownNoticeHeard echo) { s with notices := { s.notices with ownEchoes := rest } }) ∧
    (∀ destination bytes, s.notices.ownEchoes = [] →
      s.trunk.line = some ⟨.notice destination n, bytes, .live, false⟩ →
      destination = 0 ∨ destination = s.ownAddress →
      taken (.ownNoticeHeard bytes)
        { s with trunk := { s.trunk with line := some ⟨.notice destination n, bytes, .live, true⟩ } }) ∧
    (∀ bytes, s.trunk.line = none → receiveChecks bytes = true → kindOf bytes = some .notice →
      noticeOf bytes = n → sourceOf bytes ≠ s.ownAddress →
      destinationOf bytes = 0 ∨ destinationOf bytes = s.ownAddress ∧ s.ownAddress ≤ 40 →
      taken (.receiveFrame ⟨bytes, s.station.config.rate, false⟩) (restartSilence (sourceOf bytes) s))

/-- R136, R182: a notice that only one booking matches, in mode EVERY with POST alone, is posted as a NOTICE_SEEN,
whether it is an own notice or one received from a peer. -/
def Obligations.NoticePosted : Prop :=
  ∀ (n : NoticeArrival) (b : Fin 16) (s : State),
    s.onTrunk = true → (s.booking b).matchesArrival n = true →
    (∀ j, j ≠ b → (s.booking j).matchesArrival n = false) → (s.booking b).once = false → (s.booking b).post = true →
    (s.booking b).start = false → (s.booking b).release = false →
    let posted (t : State) : Prop := t.engine = s.engine ∧ t.trunk = s.trunk ∧
      (s.writer.slots.length < 4 →
        t.writer.slots = s.writer.slots ++ [.noticeSeen b n.source n.code n.argument] ∧
        t.writer.dropCount = s.writer.dropCount ∧ t.counters = s.counters) ∧
      (4 ≤ s.writer.slots.length → t.writer.slots = s.writer.slots ∧
        t.writer.dropCount = min (s.writer.dropCount + 1) 65535 ∧
        t.counters = { s.counters with droppedEvents := min (s.counters.droppedEvents + 1) 65535 })
    (∀ rest echo, s.notices.ownEchoes = n :: rest → ∃ t, exec (.ownNoticeHeard echo) s = .next t ∧ posted t ∧
      t.station = s.station) ∧
    (∀ bytes, s.trunk.line = none → receiveChecks bytes = true → kindOf bytes = some .notice →
      noticeOf bytes = n → sourceOf bytes ≠ s.ownAddress →
      destinationOf bytes = 0 ∨ destinationOf bytes = s.ownAddress ∧ s.ownAddress ≤ 40 →
      ∃ t, exec (.receiveFrame ⟨bytes, s.station.config.rate, false⟩) s = .next t ∧ posted t ∧
        t.station = (restartSilence (sourceOf bytes) s).station)

/-- R61, R154, R163, R172, R191: an arrival that fails the receive checks, that was sent at another rate than the
station's, or that was in reception when the station's rate changed, is dropped and counted; nothing else changes, but
that one whose check is good, at the station's rate throughout, restarts the silence timer of its source, whichever of
the other checks it fails; a good frame to another address, or to one above 40, goes to no block; a good reply addressed
to the station that matches no tag, or whose contents do not fit, is dropped and counted as stale. Each good frame first
restarts the silence timer of its source. That a destination above 40 is another address where an invalid strap reads so
is read from R191 by inference (log entry 42). -/
def Obligations.DroppedArrivals : Prop :=
  ∀ (bytes : List Byte) (rate : Rate) (changed : Bool) (s : State), s.trunk.line = none →
    (rate ≠ s.station.config.rate ∨ changed = true ∨ checkGood bytes = false →
      exec (.receiveFrame ⟨bytes, rate, changed⟩) s = .next { s with
        counters := { s.counters with checkErrors := min (s.counters.checkErrors + 1) 65535 } }) ∧
    (rate = s.station.config.rate → changed = false → checkGood bytes = true → receiveChecks bytes = false →
      (∀ i : Fin 40, sourceOf bytes = i.val + 1 → (s.peer i).present = true →
        exec (.receiveFrame ⟨bytes, rate, changed⟩) s = .next { s.setPeer i { s.peer i with
            silence := .running (3 * (s.peer i).interval.toNat) } with
          counters := { s.counters with checkErrors := min (s.counters.checkErrors + 1) 65535 } }) ∧
      ((∀ i : Fin 40, sourceOf bytes = i.val + 1 → (s.peer i).present = false) →
        exec (.receiveFrame ⟨bytes, rate, changed⟩) s = .next { s with
          counters := { s.counters with checkErrors := min (s.counters.checkErrors + 1) 65535 } })) ∧
    (rate = s.station.config.rate → changed = false → receiveChecks bytes = true → sourceOf bytes ≠ s.ownAddress →
      (kindOf bytes = some .request ∨ kindOf bytes = some .reply ∨
        kindOf bytes = some .notice ∧ destinationOf bytes ≠ 0) →
      destinationOf bytes ≠ s.ownAddress ∨ 40 < destinationOf bytes →
      exec (.receiveFrame ⟨bytes, rate, changed⟩) s = .next (restartSilence (sourceOf bytes) s)) ∧
    (rate = s.station.config.rate → changed = false → receiveChecks bytes = true → kindOf bytes = some .reply →
      sourceOf bytes ≠ s.ownAddress → destinationOf bytes = s.ownAddress → s.ownAddress ≤ 40 →
      ((replyOf bytes).matchesTag (s.tag (tagOf bytes)) = false ∨
        (replyOf bytes).fits (s.tag (tagOf bytes)) = false) →
      exec (.receiveFrame ⟨bytes, rate, changed⟩) s = .next { restartSilence (sourceOf bytes) s with
        counters := { s.counters with staleReplies := min (s.counters.staleReplies + 1) 65535 } })

/-- R101, R107, R108, R109, R110, R111, R112, R113, R125: a request addressed to the station. One that is no repeat
empties the memo of its source when it uses the memo's tag or is a CLAIM. By the checks in their order it is answered at
once from a free immediate slot (dropped and counted when there is none), or queued as a work item against the window,
where the head item begins if none is executing (a READ reads its count words at its address, a WRITE writes its payload
there, a CLAIM begins with its read); a repeated CLAIM is answered from the memo, or discarded when its item is still
queued. In the other station states it is discarded. -/
def Obligations.RequestArrival : Prop :=
  ∀ (bytes : List Byte) (source : Fin 40) (s : State), s.trunk.line = none → receiveChecks bytes = true →
    kindOf bytes = some .request → sourceOf bytes = source.val + 1 → sourceOf bytes ≠ s.ownAddress →
    destinationOf bytes = s.ownAddress → s.ownAddress ≤ 40 →
    let r := requestOf bytes
    let received : Instr := .receiveFrame ⟨bytes, s.station.config.rate, false⟩
    let memos (t : State) : Prop :=
      t.memo source = (if r.repeated = false ∧
        ∃ m, s.memo source = some m ∧ (m.tag = r.tag ∨ r.operation = .claim) then none else s.memo source) ∧
      ∀ a, a ≠ source → t.memo a = s.memo a
    let answer (status : Status) (won : Bool) (payload : List Word) : Prop := ∃ t, exec received s = .next t ∧ memos t ∧
      t.responder.queue = s.responder.queue ∧ t.responder.windows = s.responder.windows ∧
      (s.immediateTaken < 4 →
        t.trunk.replies = s.trunk.replies ++ [⟨r.reply status won payload, false, 0⟩] ∧ t.counters = s.counters) ∧
      (4 ≤ s.immediateTaken → t.trunk.replies = s.trunk.replies ∧
        t.counters = { s.counters with droppedRequests := min (s.counters.droppedRequests + 1) 65535 })
    let answered (status : Status) : Prop := answer status false []
    (s.onTrunk = false → exec received s = .next (restartSilence (sourceOf bytes) s)) ∧
    (s.station.state = .leaving → answered (.notReady .leaving)) ∧
    (s.station.state = .joined →
      (15 < r.window.toNat → answered .noWindow) ∧
      ∀ i : Fin 16, i.val = r.window.toNat →
        let w := s.window i
        let barred : Prop := w.permits r.source = false ∨ (r.operation = .read ∧ w.access = .writeOnly) ∨
          (r.operation = .write ∧ w.access = .readOnly) ∨
          (r.operation = .claim ∧ (w.access ≠ .readWrite ∨ w.paired = true))
        let outOfRange : Prop := r.count.toNat = 0 ∨ 16 < r.count.toNat ∨ (r.operation = .claim ∧ r.count.toNat ≠ 1) ∨
          w.size < r.offset.toNat + r.count.toNat
        (w.state = .closed ∨ w.state = .closing → answered .noWindow) ∧
        (w.state = .opened ∨ w.state = .held →
          (barred → answered .refused) ∧
          (¬ barred → outOfRange → answered .range) ∧
          (¬ barred → ¬ outOfRange → w.state = .held → answered (.notReady .held)) ∧
          (¬ barred → ¬ outOfRange → w.state = .opened →
            let inMemo (m : Memo) : Prop := r.operation = .claim ∧ r.repeated = true ∧ s.memo source = some m ∧
              m.tag = r.tag ∧ m.generation = r.generation
            let queued : Prop := r.operation = .claim ∧ r.repeated = true ∧ ∃ item ∈ s.responder.queue,
              item.operation = .claim ∧ item.memoDue = true ∧ item.source = r.source ∧ item.tag = r.tag ∧
              item.generation = r.generation
            (∀ m, inMemo m → answer .accepted m.won [m.previous]) ∧
            ((∀ m, ¬ inMemo m) → queued → exec received s = .next (restartSilence (sourceOf bytes) s)) ∧
            ((∀ m, ¬ inMemo m) → ¬ queued → 8 ≤ s.reservedTaken → answered (.notReady .busy)) ∧
            ((∀ m, ¬ inMemo m) → ¬ queued → s.reservedTaken < 8 →
              ∃ t, exec received s = .next t ∧ memos t ∧ t.trunk = s.trunk ∧ t.counters = s.counters ∧
                t.responder.windows = s.responder.windows ∧
                (s.responder.execution = none → ∀ head later, t.responder.queue = head :: later →
                  ∃ stage, t.responder.execution = some ⟨stage, false⟩ ∧ head.Begins stage) ∧
                (s.responder.execution ≠ none → t.responder.execution = s.responder.execution) ∧
                ∃ item : WorkItem, t.responder.queue = s.responder.queue ++ [item] ∧
                  item.source = r.source ∧ item.tag = r.tag ∧ item.generation = r.generation ∧
                  item.operation = r.operation ∧ item.window = i ∧ item.offset = r.offset ∧ item.count = r.count ∧
                  item.payload = r.payload ∧ item.memoDue = decide (r.operation = .claim) ∧
                  item.half = (if w.paired = false then .a
                    else if r.operation = .read then w.published else w.published.other) ∧
                  item.addr = (if item.half = .a then w.baseA else w.baseB) +
                    BitVec.ofNat 32 (4 * r.offset.toNat)))))

/-! ## Channels -/

/-- R3, R7, R20, R22, R24, R25, R28, R31, R32, R40, R41, R193: START, and what the channel does at the entry it begins.
The entry is captured from the list store as it stands and its fields set; the first check of R8 that fails halts the
channel with BAD_ENTRY, its number in the status part of the detail; an END reports CH_DONE, a MARK raises CH_MARK, a
NOTICE waits for its place, an entry that makes requests is ready to prepare its first segment, and a WAIT consumes a set
latch and goes on, ends with BOOKING_IDLE, or waits. That an entry of any kind sets the cursor, also when a check fails,
is read from R31 by inference (log entry 15). -/
def Obligations.StartEffect : Prop :=
  ∀ s : State, s.port.executing = none →
    let a := s.port.arguments
    let n := field a[0] 16 16
    (3 < field a[0] 0 8 ∨ 1023 < n → exec .start s = .next (s.withResult .badArg)) ∧
    ∀ c : Fin 4, field a[0] 0 8 = c.val → n ≤ 1023 →
      (s.station.state ≠ .joined → exec .start s = .next (s.withResult .badState)) ∧
      (s.station.state = .joined → (s.channel c).state ≠ .idle → (s.channel c).state ≠ .halted →
        exec .start s = .next (s.withResult .busy)) ∧
      (s.station.state = .joined → (s.channel c).state = .idle ∨ (s.channel c).state = .halted →
        let e := s.entry n
        let checked := firstFailedCheck s.ownAddress none e
        let begun : Channel := { s.channel c with
          state := .running, entryIndex := n, entryUnbegun := false, captured := e, nextSegment := 0, completed := 0
          tolerated := 0, lastTolerated := none, resumeSegment := none, sweepCursor := e.target, sweepPosition := 0
          walk := none, prepared := none, issueBuffer := List.replicate 16 0, sweepHeader := none, noticeWait := .absent
          haltError := none, haltDetail := HaltDetail.none, startSource := .host }
        (∀ k, checked = some k → exec .start s = .next ((s.setChannel c { begun with
          state := .reporting, haltError := some .badEntry, haltDetail := ⟨none, some k, none⟩, resumeSegment := some 0
          heldSlot := some (.chHalted c .host n (some .badEntry) ⟨none, some k, none⟩ 0) }).withResult .done)) ∧
        (checked = none → e.kind = some .endList → exec .start s = .next ((s.setChannel c { begun with
          state := .reporting, heldSlot := some (.chDone c .host) }).withResult .done)) ∧
        (checked = none → e.kind = some .mark → exec .start s = .next ((s.setChannel c { begun with
          heldSlot := some (.chMark c n e.markCode) }).withResult .done)) ∧
        (checked = none → e.kind = some .notice → exec .start s = .next ((s.setChannel c { begun with
          noticeWait := .place }).withResult .done)) ∧
        (checked = none → e.makesRequests = true → exec .start s = .next ((s.setChannel c begun).withResult .done)) ∧
        (∀ b : Fin 16, checked = none → e.kind = some .wait → e.booking = b.val → (s.booking b).latch = false →
          (s.booking b).state = .armed → exec .start s = .next ((s.setChannel c { begun with
            state := .waiting, waitBooking := some b
            waitTimer := if e.timeout = 0 then .stopped else .running e.timeout }).withResult .done)) ∧
        (∀ b : Fin 16, checked = none → e.kind = some .wait → e.booking = b.val → (s.booking b).latch = true →
          (∃ t, exec .start s = .next (t.withResult .done) ∧
            State.EntryBegun c (n + 1) ((s.setChannel c begun).setBooking b { s.booking b with latch := false }) t) ∧
          ∃ t, exec .start s = .next t ∧ (t.booking b).latch = false ∧ n < (t.channel c).entryIndex ∧
            ∀ d, d ≠ c → t.channel d = s.channel d) ∧
        (∀ b : Fin 16, checked = none → e.kind = some .wait → e.booking = b.val → (s.booking b).latch = false →
          (s.booking b).state ≠ .armed →
          (e.disposition ≠ some .tolerant → ∃ t, exec .start s = .next (t.withResult .done) ∧
            State.ChannelFails c .bookingIdle ⟨none, none, some (BitVec.ofNat 32 b.val)⟩ 0 (s.setChannel c begun) t) ∧
          (e.disposition = some .tolerant → exec .start s = .next ((s.setChannel c { begun.left with
            tolerated := 1, lastTolerated := some .bookingIdle
            heldSlot := some (.chTolerated c n 1 (some .bookingIdle)) }).withResult .done))) ∧
        ∃ t, exec .start s = .next (t.withResult .done) ∧ State.EntryBegun c n (s.setChannel c { s.channel c with
          state := .running, startSource := .host, haltError := none, haltDetail := HaltDetail.none
          resumeSegment := none }) t)

/-- R38, R39, R67, R71, R100, R130: STOP. A HALTED channel goes IDLE with its halt context discarded; that it takes every
reset value of R26 then is read from R38 and R26 by inference (log entry 17). A RUNNING or WAITING one goes STOPPING,
with nothing left to issue or to wait for: the writes not begun are cancelled and their tags released, the tags in
BACKOFF are ended but the completing ones, and its notices in the queue become DETACHED. Of what it was preparing, an
access in progress runs to its end with its result dropped, and one not begun is withdrawn. -/
def Obligations.StopEffect : Prop :=
  ∀ s : State, s.port.executing = none →
    let a := s.port.arguments
    (3 < field a[0] 0 8 → exec .stop s = .next (s.withResult .badArg)) ∧
    ∀ c : Fin 4, field a[0] 0 8 = c.val →
      let ch := s.channel c
      (ch.state = .idle → exec .stop s = .next (s.withResult .badState)) ∧
      (ch.state = .stopping ∨ ch.state = .failing ∨ ch.state = .reporting →
        exec .stop s = .next (s.withResult .busy)) ∧
      (ch.state = .halted → exec .stop s = .next ((s.setChannel c Channel.reset).withResult .done)) ∧
      (ch.state = .running ∨ ch.state = .waiting → ∃ t, exec .stop s = .next t ∧
        let cancelled (k : Fin 16) : Prop := ∃ w ∈ ch.writes, w.begun = false ∧ w.tag = some k
        t.port = (s.withResult .accepted).port ∧
        t.channel c = { ch.left with state := .stopping, writes := ch.writes.filter CompletionWrite.begun } ∧
        (∀ d, d ≠ c → t.channel d = s.channel d) ∧
        t.notices = { s.notices with queue := s.detachedNotices c } ∧
        (∀ k, cancelled k ∨ s.endsWith c k → t.tag k = s.releasedTag k) ∧
        (∀ k, ¬ cancelled k → ¬ s.endsWith c k → t.tag k = s.tag k) ∧
        t.listStore = s.listStore ∧ t.memory = s.memory ∧ t.responder = s.responder ∧ t.station = s.station ∧
        t.trunk = s.trunk ∧ t.counters = s.counters ∧ t.writer = s.writer)

/-- R4, R7, R9, R20, R22, R24, R25, R30, R44, R193: RESUME. The halted entry is captured anew and checked, check 14
included, the number of a failed check in the status part of the detail; an entry that makes requests goes on at its
resume segment, which is cleared with the halt error and detail, and a sweep keeps its cursor and its output position; an
entry of another kind takes its course again. An entry that has not been begun is begun, and an index of 1024 fails check
15. That the new copy and the start source stand as they are after a check that fails at a RESUME is read from R4 and R30
by inference (log entry 16), and so is that a WRITE_IMMEDIATE or CLAIM resumed at segment 1 finishes its entry at once
(log entry 6). -/
def Obligations.ResumeEffect : Prop :=
  ∀ s : State, s.port.executing = none →
    let a := s.port.arguments
    (3 < field a[0] 0 8 → exec .resume s = .next (s.withResult .badArg)) ∧
    ∀ c : Fin 4, field a[0] 0 8 = c.val →
      let ch := s.channel c
      (s.station.state ≠ .joined → exec .resume s = .next (s.withResult .badState)) ∧
      (s.station.state = .joined → ch.state = .idle → exec .resume s = .next (s.withResult .badState)) ∧
      (s.station.state = .joined → ch.state ≠ .idle → ch.state ≠ .halted →
        exec .resume s = .next (s.withResult .busy)) ∧
      (s.station.state = .joined → ch.state = .halted →
        (ch.entryUnbegun = true → ∃ t, exec .resume s = .next (t.withResult .done) ∧
          State.EntryBegun c ch.entryIndex (s.setChannel c { ch with
            state := .running, startSource := .host, haltError := none, haltDetail := HaltDetail.none
            resumeSegment := none }) t) ∧
        (ch.entryUnbegun = false → 1024 ≤ ch.entryIndex → ∃ t, exec .resume s = .next (t.withResult .done) ∧
          State.EntryBegun c ch.entryIndex s t) ∧
        ∀ r, ch.entryUnbegun = false → ch.entryIndex < 1024 → ch.resumeSegment = some r →
          let e := s.entry ch.entryIndex
          let checked := firstFailedCheck s.ownAddress (some ⟨ch.captured, r⟩) e
          let resumed := s.setChannel c { ch with
            state := .running, captured := e, nextSegment := r, completed := r, tolerated := 0, lastTolerated := none
            resumeSegment := none, haltError := none, haltDetail := HaltDetail.none, startSource := .host
            walk := none, prepared := none, issueBuffer := List.replicate 16 0, sweepHeader := none
            noticeWait := .absent }
          (∀ k, checked = some k → exec .resume s = .next ((s.setChannel c { ch with
            state := .reporting, captured := e, haltError := some .badEntry, haltDetail := ⟨none, some k, none⟩
            resumeSegment := some 0
            heldSlot := some (.chHalted c ch.startSource ch.entryIndex (some .badEntry) ⟨none, some k, none⟩ 0) }).withResult
              .done)) ∧
          (checked = none → e.makesRequests = true → e.isSweep = true ∨ r < e.segments →
            exec .resume s = .next (resumed.withResult .done)) ∧
          (checked = none → ∃ t, exec .resume s = .next (t.withResult .done) ∧
            State.CourseTaken (fun u => State.EntryBegun c (ch.entryIndex + 1) u t) c resumed t))

/-- R22, R32, R34, R40, R41, R42: the wait timer of a WAITING channel expires. Not under TOLERANT the channel goes
FAILING with WAIT_TIMEOUT and the booking as value, its resume segment 0; under TOLERANT it raises CH_TOLERATED and
pauses. -/
def Obligations.WaitTimerExpiry : Prop :=
  ∀ (c : Fin 4) (b : Fin 16) (s : State), (s.channel c).state = .waiting → (s.channel c).waitTimer ≠ .stopped →
    (s.channel c).waitBooking = some b →
    ((s.channel c).captured.disposition ≠ some .tolerant → ∃ t, exec (.waitTimerExpiry c) s = .next t ∧
      State.ChannelFails c .waitTimeout ⟨none, none, some (BitVec.ofNat 32 b.val)⟩ 0 s t) ∧
    ((s.channel c).captured.disposition = some .tolerant → exec (.waitTimerExpiry c) s =
      .next (s.setChannel c { (s.channel c).left with
        state := .running, tolerated := (s.channel c).tolerated + 1, lastTolerated := some .waitTimeout
        heldSlot := some (.chTolerated c (s.channel c).entryIndex ((s.channel c).tolerated + 1) (some .waitTimeout)) }))

/-- R36: a STOPPING or FAILING channel that owns no tag, has no access in flight and has an empty slot enters REPORTING
with its end event. -/
def Obligations.ChannelEnterReporting : Prop :=
  ∀ (c : Fin 4) (s : State), (∀ k, (s.tag k).owned = true → (s.tag k).owner ≠ some c) →
    (s.channel c).preparation = none → (s.channel c).writes = [] → (s.channel c).heldSlot = none →
    ((s.channel c).state = .stopping → exec (.channelEnterReporting c) s = .next (s.setChannel c { s.channel c with
      state := .reporting, heldSlot := some (.chStopped c (s.channel c).startSource) })) ∧
    (∀ r, (s.channel c).state = .failing → (s.channel c).resumeSegment = some r →
      exec (.channelEnterReporting c) s = .next (s.setChannel c { s.channel c with
        state := .reporting
        heldSlot := some (.chHalted c (s.channel c).startSource (s.channel c).entryIndex (s.channel c).haltError
          (s.channel c).haltDetail r) }))

/-! ## The transaction engine -/

/-- R31, R32, R40, R51, R84, R85, R92, R93, R95, R96: a RUNNING channel prepares its next segment. A WRITE_IMMEDIATE or
CLAIM is prepared at once; of a READ or WRITE the walk goes on with the segment's words, and of a READ sweep with the
word of its record's header: with no walk begun it fetches descriptor 0 of the chain; else it places what lies in the
region in use, and fetches the next descriptor, or the chain is short and the channel fails. With all of them placed a
READ is prepared, a sweep keeps its header's place, and a WRITE goes on to read its words. A sweep with no qualifying
peer at or above its cursor has finished its entry. That a descriptor's address wraps modulo 2^32 is the model's choice
(log entry 41). -/
def Obligations.PrepareSegment : Prop :=
  ∀ (c : Fin 4) (s : State),
    let ch := s.channel c
    let e := ch.captured
    ch.state = .running → ch.heldSlot = none → ch.preparation = none → ch.prepared = none → e.makesRequests = true →
    s.outstanding c < e.limitOutstanding → e.isSweep = true ∨ ch.nextSegment < e.segments →
    let qualifies (i : Fin 40) : Prop := ch.sweepCursor ≤ i.val + 1 ∧ i.val + 1 ≠ s.ownAddress ∧
      (s.peer i).present = true ∧ (s.peer i).mask.getLsbD e.window = true
    (e.usesChain = false → e.isSweep = false ∨ (∃ i, qualifies i) → exec (.prepareSegment c) s =
      .next (s.setChannel c { ch with prepared := some ⟨ch.nextSegment, []⟩ })) ∧
    (e.usesChain = true → e.isSweep = false → ch.walk = none → exec (.prepareSegment c) s =
      .next (s.setChannel c { ch with preparation := some {
        segment := ch.nextSegment
        stage := .fetching ⟨16 * ch.nextSegment, e.segmentWords ch.nextSegment, []⟩
          ⟨e.chainAddress, e.chainAddress, 2, [], false⟩
        dropped := false } })) ∧
    (∀ q : WalkRequest, e.usesChain = true →
      (e.isSweep = false → q = ⟨16 * ch.nextSegment, e.segmentWords ch.nextSegment, []⟩) →
      (e.isSweep = true → (∃ i, qualifies i) ∧ q = ⟨ch.sweepPosition, 1, []⟩) →
      ∃ walk request answer, WalkGoesOn e.chainAddress ch.walk q (walk, request, answer) ∧
        let walked : Channel := { ch with walk := walk }
        (∀ d, answer = .fetch d → exec (.prepareSegment c) s = .next (s.setChannel c { walked with
          preparation := some ⟨ch.nextSegment, .fetching request (descriptorAccess d), false⟩ })) ∧
        (answer = .placed → e.isSweep = true → exec (.prepareSegment c) s = .next (s.setChannel c { walked with
          prepared := some ⟨ch.nextSegment, []⟩, sweepHeader := request.pieces.head?.map Piece.addr })) ∧
        (answer = .placed → e.isSweep = false → e.kind = some .read → exec (.prepareSegment c) s =
          .next (s.setChannel c { walked with prepared := some ⟨ch.nextSegment, request.pieces⟩ })) ∧
        (∀ first rest, answer = .placed → e.isSweep = false → e.kind = some .write → request.pieces = first :: rest →
          exec (.prepareSegment c) s = .next (s.setChannel c { walked with
            preparation := some ⟨ch.nextSegment,
              .payload request.pieces [] ⟨first.addr, first.addr, first.count, [], false⟩ rest, false⟩ })) ∧
        (∀ position, answer = .short position → ∃ t, exec (.prepareSegment c) s = .next t ∧
          State.ChannelFails c .chainShort ⟨none, none, some (BitVec.ofNat 32 position)⟩ ch.nextSegment
            (s.setChannel c walked) t)) ∧
    (e.isSweep = true → (¬ ∃ i, qualifies i) →
      (∃ t, exec (.prepareSegment c) s = .next t ∧ State.EntryFinished c s t) ∧
      (0 < ch.tolerated → exec (.prepareSegment c) s = .next (s.setChannel c { ch with
        heldSlot := some (.chTolerated c ch.entryIndex ch.tolerated ch.lastTolerated) })))

/-- R41, R52, R53, R54, R55, R65, R71, R75, R77, R79, R81, R82, R84, R85: the allocator grants the lowest FREE tag to the
first candidate after the last served channel, towards the entry's target, or the lowest qualifying peer of a sweep.
Towards a PRESENT target the tag is QUEUED with its generation flipped and its fields filled from the entry; towards an
ABSENT one the attempt ends at once with ABSENT, by the entry's disposition. A sweep that finds no qualifying peer
discards what it has prepared, and its entry is finished. That a sweep's tag carries the header placement of its channel
is the model's form of it (log entry 14). -/
def Obligations.TagGrant : Prop :=
  ∀ (c : Fin 4) (k : Fin 16) (p : PreparedSegment) (s : State),
    let ch := s.channel c
    let e := ch.captured
    let qualifies (i : Fin 40) : Prop := ch.sweepCursor ≤ i.val + 1 ∧ i.val + 1 ≠ s.ownAddress ∧
      (s.peer i).present = true ∧ (s.peer i).mask.getLsbD e.window = true
    s.station.state = .joined → ch.state = .running → ch.prepared = some p →
    s.outstanding c < e.limitOutstanding → (e.kind = some .claim → s.claimOutstanding e.target = false) →
    (s.tag k).state = .free → (∀ j, j < k → (s.tag j).state ≠ .free) →
    let granted (target : Nat) : Tag := { s.tag k with
      state := .queued, owner := some c, segment := p.segment, sweep := e.isSweep
      operation := if e.kind = some .read then .read else if e.kind = some .claim then .claim else .write
      target := target, window := e.window
      offset := if e.usesChain = true ∧ e.isSweep = false then e.offset + 16 * p.segment else e.offset
      count := e.segmentWords p.segment, generation := !(s.tag k).generation
      attempts := 1, onLine := false, lastAnswered := false, unanswered := false, completing := false
      lastOutcome := none, repeated := false, sameOnLine := false, otherOnLine := false, tries := 0, timer := .stopped
      destination := if e.kind = some .read ∧ e.isSweep = false then some p.placement else none
      payload := if e.kind = some .read then (s.tag k).payload else if e.kind = some .write then ch.issueBuffer
        else if e.kind = some .claim then [e.expected, e.replacement]
        else if e.count = 2 then [e.dataA, e.dataB] else [e.dataA]
      header := if e.isSweep = true then ch.sweepHeader else none }
    let issued : Channel := { ch with
      nextSegment := ch.nextSegment + 1, prepared := none, issueBuffer := List.replicate 16 0 }
    let served : State := { s with engine := { s.engine with lastServed := c } }
    (∀ target, e.makesRequests = true →
      (∀ d : Fin 4, (d - (s.engine.lastServed + 1)).val < (c - (s.engine.lastServed + 1)).val → s.candidate d = false) →
      (e.isSweep = false → target = e.target) →
      (e.isSweep = true → ∃ i, qualifies i ∧ (∀ j, j < i → ¬ qualifies j) ∧ target = i.val + 1) →
      (s.isPresent target = true → exec .tagGrant s =
        .next ((served.setTag k (granted target)).setChannel c issued)) ∧
      (s.isPresent target = false → e.isSweep = false →
        let unsent : State := withdrawTry (TryFrame.isRequestOf k) served
        let ended : Tag := { granted target with state := .free, owner := none, lastOutcome := some .absent }
        let halted (error : HaltError) (status : Option Nat) : Prop := ∃ t, exec .tagGrant s = .next t ∧
          t.engine.lastServed = c ∧ (t.channel c).state = .failing ∧ (t.channel c).haltError = some error ∧
          (t.channel c).haltDetail = ⟨some target, status, none⟩ ∧
          (∃ n ≤ p.segment, (t.channel c).resumeSegment = some n) ∧ t.tag k = ended ∧
          (∀ d, d ≠ c → t.channel d = s.channel d) ∧ t.trunk = unsent.trunk ∧ t.station = s.station ∧
          t.responder = s.responder ∧ t.writer = s.writer ∧ t.counters = s.counters ∧ t.listStore = s.listStore
        let tolerated : Channel := { issued with
          completed := ch.completed + 1, tolerated := ch.tolerated + 1, lastTolerated := some .absent }
        (∃ t, exec .tagGrant s = .next t ∧
          State.OutcomeTaken k .absent ((served.setTag k (granted target)).setChannel c issued) t) ∧
        (e.disposition = some .strict → halted .absent none) ∧
        (e.disposition = some .tolerant →
          (ch.completed + 1 < e.segments → exec .tagGrant s =
            .next ((unsent.setTag k ended).setChannel c tolerated)) ∧
          (e.segments ≤ ch.completed + 1 → ∃ t, exec .tagGrant s = .next t ∧
            State.EntryFinished c ((unsent.setTag k ended).setChannel c tolerated) t)) ∧
        (e.disposition = some .persist →
          (1 < e.limit → exec .tagGrant s = .next ((unsent.setTag k { granted target with
            state := .backoff, lastOutcome := some .absent
            timer := .running s.station.config.retryInterval.toNat }).setChannel c issued)) ∧
          (e.limit ≤ 1 → halted .persistExhausted (some 0x0A))))) ∧
    (e.isSweep = true → (∀ i, ¬ qualifies i) → (∀ d, d ≠ c → s.candidate d = false) → ∃ t, exec .tagGrant s = .next t ∧
      State.EntryFinished c (s.setChannel c { ch with prepared := none, sweepHeader := none }) t)

/-- R62, R64, R66, R68, R69, R71, R77, R79, R81, R82, R86: a reply deadline expires at a SENT tag. Its attempt ends with
TIMEOUT, unanswered, whatever its owner does with it. For a RUNNING channel, not under SWEEP: under PERSIST below the
limit the tag goes to BACKOFF for the retry interval; under STRICT the channel halts with TIMEOUT, or with UNCERTAIN for
a CLAIM, and the tag is COOLING for 2 D. Of a sweep READ, that its record takes its header's place from the tag is the
model's choice (log entry 14). -/
def Obligations.DeadlineExpiry : Prop :=
  ∀ (k : Fin 16) (s : State), (s.tag k).state = .sent → (s.tag k).completing = false → (s.tag k).timer ≠ .stopped →
    (∃ t, exec (.deadlineExpiry k) s = .next t ∧
      State.OutcomeTaken k .timeout (s.setTag k { s.tag k with unanswered := true }) t) ∧
    ∀ c, (s.tag k).owner = some c → (s.channel c).state = .running → (s.tag k).sweep = false →
    ((s.channel c).captured.disposition = some .persist → (s.tag k).attempts < (s.channel c).captured.limit →
      ∃ t, exec (.deadlineExpiry k) s = .next t ∧
        t.tag k = { s.tag k with
          state := .backoff, unanswered := true, lastOutcome := some .timeout
          timer := .running s.station.config.retryInterval.toNat } ∧
        (∀ j, j ≠ k → t.tag j = s.tag j) ∧ t.engine.channels = s.engine.channels ∧ t.station = s.station ∧
        t.responder = s.responder ∧ t.notices = s.notices ∧ t.writer = s.writer ∧ t.counters = s.counters) ∧
    ((s.channel c).captured.disposition = some .strict → ∃ t, exec (.deadlineExpiry k) s = .next t ∧
      (t.channel c).state = .failing ∧ (t.channel c).resumeSegment ≠ none ∧
      ((s.tag k).operation ≠ .claim → (t.channel c).haltError = some .timeout ∧
        (t.channel c).haltDetail = ⟨some (s.tag k).target, none, none⟩) ∧
      ((s.tag k).operation = .claim → (t.channel c).haltError = some .uncertain ∧
        (t.channel c).haltDetail = ⟨some (s.tag k).target, some 0x09, none⟩) ∧
      (t.tag k).state = .cooling ∧ (t.tag k).owner = none ∧
      (t.tag k).timer = .running (2 * s.station.config.replyDeadline.toNat) ∧
      (∀ d, d ≠ c → t.channel d = s.channel d) ∧ t.station = s.station ∧ t.responder = s.responder ∧
      t.writer = s.writer ∧ t.counters = s.counters)

/-- R64, R65, R69, R75, R81, R82: a retry interval expires: the next attempt is QUEUED, with the generation flipped after
an answered attempt and kept after an unanswered one, whose frame carries the repeat flag when an earlier attempt with
that generation was on the line (that attempts made before two flips count is read from R65 by inference, log entry 46);
of the attempts with the present and with the other generation the tag keeps whether one was on the line; towards an
ABSENT target the attempt ends at once with ABSENT, by the channel's disposition. A cooling time expires: the tag is
FREE. -/
def Obligations.RetryAndCoolingExpiry : Prop :=
  ∀ (k : Fin 16) (s : State), (s.tag k).timer ≠ .stopped →
    let same : Bool := (s.tag k).sameOnLine || (s.tag k).onLine
    let attempt : State := s.setTag k { s.tag k with
      state := .queued, attempts := (s.tag k).attempts + 1
      generation := xor (s.tag k).generation (s.tag k).lastAnswered
      repeated := !(s.tag k).lastAnswered && same
      sameOnLine := if (s.tag k).lastAnswered then (s.tag k).otherOnLine else same
      otherOnLine := if (s.tag k).lastAnswered then same else (s.tag k).otherOnLine
      onLine := false, lastAnswered := false, timer := .stopped, tries := 0 }
    ((s.tag k).state = .backoff → s.isPresent (s.tag k).target = true → exec (.retryExpiry k) s = .next attempt) ∧
    ((s.tag k).state = .backoff → s.isPresent (s.tag k).target = false → ∃ t, exec (.retryExpiry k) s = .next t ∧
      State.OutcomeTaken k .absent attempt t) ∧
    ((s.tag k).state = .cooling → exec (.coolingExpiry k) s =
      .next (s.setTag k { s.tag k with state := .free, timer := .stopped }))

/-- R58, R59, R60, R63, R67, R71, R75, R76, R77, R79, R81, R82, R94: a reply that matches a tag and fits its request.
Whatever its status, its outcome ends the tag's attempt, answered, and its owner does with it what its state and
disposition give. Of an ACCEPTED one at the tag of a RUNNING channel, not under SWEEP, with other segments of its entry
unresolved: a WRITE is completed and its tag released; a READ's words wait to be placed at the tag's destination, its tag
completing. Of a sweep READ, that its record takes its header's place from the tag (log entry 14), and has its header and
its data words written apart (log entry 25), is the model's choice. -/
def Obligations.AcceptedReply : Prop :=
  ∀ (bytes : List Byte) (k : Fin 16) (s : State), s.trunk.line = none → receiveChecks bytes = true →
    kindOf bytes = some .reply → sourceOf bytes ≠ s.ownAddress → destinationOf bytes = s.ownAddress → s.ownAddress ≤ 40 →
    tagOf bytes = k →
    let r := replyOf bytes
    let received : Instr := .receiveFrame ⟨bytes, s.station.config.rate, false⟩
    (s.tag k).owned = true → (s.tag k).completing = false → r.source = (s.tag k).target →
    r.generation = (s.tag k).generation → r.window = (s.tag k).window →
    r.offset = (s.tag k).offset → r.count = (s.tag k).count →
    (∀ status outcome, r.status = some status →
      r.payloadLength = 4 * (if status = .accepted then
        (if (s.tag k).operation = .read then (s.tag k).count else if (s.tag k).operation = .claim then 1 else 0) else 0) →
      (status = .accepted → (s.tag k).operation ≠ .claim → outcome = .accepted) →
      (status = .accepted → (s.tag k).operation = .claim →
        outcome = if r.won then .won (r.payload.headD 0) else .lost (r.payload.headD 0)) →
      (∀ reason, status = .notReady reason → outcome = .notReady reason) →
      (status = .refused → outcome = .refused) → (status = .noWindow → outcome = .noWindow) →
      (status = .range → outcome = .range) → (status = .fault → outcome = .remoteFault) →
      ∃ t, exec received s = .next t ∧
        State.OutcomeTaken k outcome ((restartSilence (sourceOf bytes) s).setTag k { s.tag k with
          lastAnswered := true
          payload := if status = .accepted ∧ (s.tag k).operation = .read then r.payload else (s.tag k).payload }) t) ∧
    ∀ c, r.status = some .accepted → (s.tag k).owner = some c → (s.channel c).state = .running → (s.tag k).sweep = false →
    ((s.tag k).operation = .write → r.payloadLength = 0 → (s.channel c).captured.isSweep = false →
      (s.channel c).completed + 1 < (s.channel c).captured.segments →
      ∃ t, exec received s = .next t ∧
        t.channel c = { s.channel c with completed := (s.channel c).completed + 1 } ∧
        (t.tag k).owner = none ∧ (t.tag k).state = (if (s.tag k).unanswered then .cooling else .free) ∧
        (t.tag k).lastOutcome = some .accepted ∧ (∀ j, j ≠ k → t.tag j = s.tag j) ∧
        (∀ d, d ≠ c → t.channel d = s.channel d) ∧ t.counters = s.counters ∧ t.writer = s.writer) ∧
    ((s.tag k).operation = .read → r.payloadLength = 4 * (s.tag k).count → ∃ t, exec received s = .next t ∧
      (t.tag k).completing = true ∧ (t.tag k).state = (s.tag k).state ∧ (t.tag k).timer = .stopped ∧
      (t.tag k).payload = r.payload ∧
      (t.channel c).writes = (s.channel c).writes ++ [{
        tag := some k, segment := (s.tag k).segment, record := none
        stage := .writing (writesOf ((s.tag k).destination.getD []) (r.payload.take (s.tag k).count)), begun := false }] ∧
      (t.channel c).completed = (s.channel c).completed ∧ (∀ j, j ≠ k → t.tag j = s.tag j) ∧
      t.counters = s.counters ∧ t.writer = s.writer)

/-- R20, R128, R129: a free place of the notice queue goes to the next channel in rotation that has a frame to place. -/
def Obligations.NoticePlaceGrant : Prop :=
  ∀ (c : Fin 4) (s : State),
    let e := (s.channel c).captured
    s.notices.queue.length < 4 → (s.channel c).state = .running → (s.channel c).noticeWait = .place →
    (∀ d : Fin 4, (d - (s.notices.lastServed + 1)).val < (c - (s.notices.lastServed + 1)).val → s.hasNotice d = false) →
    exec .noticePlaceGrant s = .next { s.setChannel c { s.channel c with noticeWait := .echo } with
      notices := { s.notices with
        queue := s.notices.queue ++ [⟨e.destination, e.noticeCode, e.argument, .channel c, 0⟩], lastServed := c } }

/-! ## The memory access unit and the event writer -/

/-- R98, R99, R100, R101, R102, R179, R184: with the bus free, the arbiter grants the burst of the highest requester that
presents one, which then takes the lowest place, the other two keeping their order; the access has begun. The event
writer presents the four words of its record at their slot; the responder the next burst of the READ or WRITE item that
executes, or a CLAIM's read of one word, which locks the bus; the engine the next burst of a completion write, of a
descriptor fetch or of a payload read, of the next channel in rotation, each cut at a boundary of 64 bytes. While a burst
is on the bus, or with none presented, nothing is granted. That the address of a record wraps modulo 2^32 is the model's
choice (log entry 45). -/
def Obligations.BusGrant : Prop :=
  ∀ s : State,
    let order := s.memory.order
    let silent (r : Requester) : Prop := ∀ b t, ¬ State.Presents s r b t
    let grants (r : Requester) (after : BusOrder) : Prop := ∀ b t, State.Presents s r b t →
      exec .busGrant s = .next { t with memory := { t.memory with burst := some b, order := after } }
    (s.memory.burst ≠ none → exec .busGrant s = .next s) ∧
    (s.memory.burst = none →
      grants order.first ⟨order.second, order.third, order.first⟩ ∧
      (silent order.first → grants order.second ⟨order.first, order.third, order.second⟩) ∧
      (silent order.first → silent order.second → grants order.third order) ∧
      (silent order.first → silent order.second → silent order.third → exec .busGrant s = .next s))

/-- R183, R185, R186: when the ring is configured, not full, without an event fault and no record write in flight, the
writer begins EVENTS_DROPPED if the drop count is above 0, else the record of the next source after the last served. -/
def Obligations.EventWriteBegin : Prop :=
  ∀ s : State, s.station.config.ringConfigured = true → s.writer.eventFault = false → s.writer.inFlight = none →
    s.unconsumed < s.ringSize →
    (0 < s.writer.dropCount → exec .eventWriteBegin s = .next { s with writer := { s.writer with
      inFlight := some ⟨none, .eventsDropped s.writer.dropCount, s.writer.producer⟩ } }) ∧
    (∀ (i : Fin 22) e, s.writer.dropCount = 0 → s.sourceRecord i = some e →
      (∀ j : Fin 22, (j - (s.writer.lastServed + 1)).val < (i - (s.writer.lastServed + 1)).val →
        s.sourceRecord j = none) →
      exec .eventWriteBegin s = .next { s with writer := { s.writer with
        inFlight := some ⟨some i, e, s.writer.producer⟩, lastServed := i } })

/-- R35, R37, R124, R184, R186, R187: the response to the event writer's burst. An error sets the event fault and changes
nothing else; else the producer advances and the record leaves its source: a channel that reported CH_DONE or CH_STOPPED
is IDLE, with every reset value of R26 (read from R37 and R26 by inference, log entry 17), one that reported CH_HALTED is
HALTED; a RUNNING channel that raised CH_MARK has finished its entry, and one that raised CH_TOLERATED begins the next,
while in a STOPPING or FAILING one the slot is emptied and no more; a window's record clears its pending mark, a slot is
freed, and EVENTS_DROPPED takes its count off the drop count. -/
def Obligations.RecordWriteEnds : Prop :=
  ∀ (data : Vector Word 16) (r : RecordWrite) (b : Burst) (s : State),
    s.memory.burst = some b → b.owner = .writer → s.writer.inFlight = some r →
    let idle : State := { s with memory := { s.memory with burst := none } }
    let placed : State := { idle with writer := { s.writer with inFlight := none, producer := s.writer.producer + 1 } }
    (exec (.burstResponse true data) s =
      .next { idle with writer := { s.writer with inFlight := none, eventFault := true } }) ∧
    (r.source = some 21 → exec (.burstResponse false data) s =
      .next { placed with writer := { placed.writer with slots := s.writer.slots.tail } }) ∧
    (r.source = some 20 → exec (.burstResponse false data) s =
      .next { placed with station := { s.station with events := s.station.events.tail } }) ∧
    (∀ n, r.source = none → r.event = .eventsDropped n → exec (.burstResponse false data) s =
      .next { placed with writer := { placed.writer with dropCount := s.writer.dropCount - n } }) ∧
    (∀ c : Fin 4, r.source = some (c.castLE (by omega)) →
      let emptied := placed.setChannel c { s.channel c with heldSlot := none }
      (∀ d src, (s.channel c).heldSlot = some (.chDone d src) ∨ (s.channel c).heldSlot = some (.chStopped d src) →
        exec (.burstResponse false data) s = .next (placed.setChannel c Channel.reset)) ∧
      (∀ d src n error detail seg, (s.channel c).heldSlot = some (.chHalted d src n error detail seg) →
        exec (.burstResponse false data) s =
          .next (placed.setChannel c { s.channel c with heldSlot := none, state := .halted })) ∧
      (∀ d n code, (s.channel c).heldSlot = some (.chMark d n code) →
        ((s.channel c).state = .running → ∃ t, exec (.burstResponse false data) s = .next t ∧
          State.EntryFinished c emptied t) ∧
        ((s.channel c).state ≠ .running → exec (.burstResponse false data) s = .next emptied)) ∧
      (∀ d n count last, (s.channel c).heldSlot = some (.chTolerated d n count last) →
        ((s.channel c).state = .running → ∃ t, exec (.burstResponse false data) s = .next t ∧
          State.EntryBegun c ((s.channel c).entryIndex + 1) emptied t) ∧
        ((s.channel c).state ≠ .running → exec (.burstResponse false data) s = .next emptied))) ∧
    (∀ w : Fin 16, r.source.map Fin.val = some (4 + w.val) →
      (∀ v rest, (s.window w).events = .windowHeld v :: rest → exec (.burstResponse false data) s =
        .next (placed.setWindow w { s.window w with events := rest, holdPending := false })) ∧
      (∀ v half rest, (s.window w).events = .windowFlipped v half :: rest → exec (.burstResponse false data) s =
        .next (placed.setWindow w { s.window w with events := rest, flipPending := false })) ∧
      (∀ v rest, (s.window w).events = .windowClosed v :: rest → exec (.burstResponse false data) s =
        .next (placed.setWindow w { s.window w with events := rest })))

/-- R98, R101, R102, R112, R113, R114, R115, R118, R124, R126: the responses to the responder's bursts. An access that
has words left goes on to its next burst. A READ item whose last words have come is answered ACCEPTED with its words in
its reserved slot, a WRITE item without payload once its last words are written; a CLAIM whose word equals its expected
value goes on to write its new value with the lock held, after which it is answered ACCEPTED and won, and else is
answered ACCEPTED, not won, with the value read, the lock released and its memo written if that is still due; an error
response is answered FAULT, a CLAIM's lock released. The item's window is tested, and the next item begins: a READ reads
its count words at its address, a WRITE writes its payload there, a CLAIM begins with its read. An item that an exclusion
has discarded goes through the same bursts and is answered with nothing. -/
def Obligations.ItemResponses : Prop :=
  ∀ (data : Vector Word 16) (item : WorkItem) (rest : List WorkItem) (b : Burst) (source : Fin 40) (discarded : Bool)
      (s : State),
    s.memory.burst = some b → b.owner = .responder → s.responder.queue = item :: rest →
    item.source = source.val + 1 →
    let reply (status : Status) (won : Bool) (words : List Word) : QueuedReply :=
      ⟨⟨item.source, item.tag, item.generation, status, won, BitVec.ofNat 8 item.window.val, item.offset, item.count,
        words⟩, true, 0⟩
    let completed (claim : Bool) (memo : Option Memo) (answer : QueuedReply) (t : State) : Prop :=
      t.responder.queue = rest ∧ (rest = [] → t.responder.execution = none) ∧
      (∀ next later, rest = next :: later → ∃ stage, t.responder.execution = some ⟨stage, false⟩ ∧ next.Begins stage) ∧
      t.window item.window = (s.window item.window).complete item.window (t.inWork item.window) ∧
      (∀ i, i ≠ item.window → t.window i = s.window i) ∧
      t.memo source = (if discarded = false ∧ item.memoDue = true ∧ memo ≠ none then memo else s.memo source) ∧
      (∀ a, a ≠ source → t.memo a = s.memo a) ∧
      t.memory = { s.memory with burst := none, lock := if claim then false else s.memory.lock } ∧
      t.trunk = { s.trunk with replies := s.trunk.replies ++ if discarded then [] else [answer] } ∧
      { t with responder := s.responder, memory := s.memory, trunk := s.trunk } = s
    let memo (won : Bool) (previous : Word) : Option Memo := some ⟨item.tag, item.generation, previous, won⟩
    let goesOn (stage : ItemStage) : State := { s with
      responder := { s.responder with execution := some ⟨stage, discarded⟩ }, memory := { s.memory with burst := none } }
    (∀ a : ReadAccess, s.responder.execution = some ⟨.reading a, discarded⟩ → b.write = none → a.burstWords = b.count →
      (b.count < a.left → exec (.burstResponse false data) s = .next (goesOn (.reading { a with
        next := a.next + BitVec.ofNat 32 (4 * b.count), left := a.left - b.count
        got := a.got ++ data.toList.take b.count }))) ∧
      (a.left = b.count → ∃ t, exec (.burstResponse false data) s = .next t ∧
        completed false none (reply .accepted false (a.got ++ data.toList.take b.count)) t)) ∧
    (∀ a : WriteAccess, s.responder.execution = some ⟨.writing a, discarded⟩ →
      (a.burstWords < a.words.length → exec (.burstResponse false data) s = .next (goesOn (.writing { a with
        next := a.next + BitVec.ofNat 32 (4 * a.burstWords), words := a.words.drop a.burstWords }))) ∧
      (a.words.length ≤ a.burstWords → ∃ t, exec (.burstResponse false data) s = .next t ∧
        completed false none (reply .accepted false []) t)) ∧
    (∀ v, s.responder.execution = some ⟨.claimWrite v, discarded⟩ →
      ∃ t, exec (.burstResponse false data) s = .next t ∧ completed true (memo true v) (reply .accepted true [v]) t) ∧
    (s.responder.execution = some ⟨.claimRead, discarded⟩ → b.write = none → b.count = 1 →
      (data[0] = item.payload.getD 0 0 → exec (.burstResponse false data) s = .next { s with
        responder := { s.responder with execution := some ⟨.claimWrite data[0], discarded⟩ }
        memory := { s.memory with burst := some {
          owner := .responder, addr := item.addr, count := 1, write := some [item.payload.getD 1 0] } } }) ∧
      (data[0] ≠ item.payload.getD 0 0 → ∃ t, exec (.burstResponse false data) s = .next t ∧
        completed true (memo false data[0]) (reply .accepted false [data[0]]) t)) ∧
    (∀ a : ReadAccess, s.responder.execution = some ⟨.reading a, discarded⟩ →
      ∃ t, exec (.burstResponse true data) s = .next t ∧ completed false none (reply .fault false []) t) ∧
    (∀ a : WriteAccess, s.responder.execution = some ⟨.writing a, discarded⟩ →
      ∃ t, exec (.burstResponse true data) s = .next t ∧ completed false none (reply .fault false []) t) ∧
    (∀ stage, stage = .claimRead ∨ (∃ v, stage = .claimWrite v) → s.responder.execution = some ⟨stage, discarded⟩ →
      ∃ t, exec (.burstResponse true data) s = .next t ∧ completed true none (reply .fault false []) t)

/-- R32, R39, R40, R41, R51, R67, R68, R86, R87, R89, R90, R91, R92, R93, R94, R95, R96, R97, R98, R193: the responses to
the engine's bursts, of a RUNNING, STOPPING or FAILING channel. An access with words left goes on to its next burst. Of a
RUNNING channel, a whole descriptor brings its region into use: the words wanted that lie in it are placed there; if more
are wanted, the next descriptor is fetched, or the chain is short. With all of them placed, a READ segment is prepared, a
sweep keeps its header's place, a WRITE reads its words, piece by piece, and is prepared with the last. The result of a
preparation that was in progress when its channel left RUNNING is dropped. A sweep record that goes on to be placed is
written, its header first. A completion write whose last words are written releases its tag and, unless its channel is
STOPPING, completes its segment; a sweep record moves the output position and the cursor too. One whose tag an exclusion
has freed ends with nothing more. An error response is a HOST_FAULT: a RUNNING channel goes FAILING, naming the access
and the address of its first word, a FAILING one lowers its resume segment to the segment, and in a STOPPING one the
fault is not reported; so with a chain that ends. Where either meets a sweep record, the cursor stays at the record's
peer. That a descriptor's address wraps modulo 2^32 is the model's choice (log entry 41); that one access is one span of
consecutive words, whose first HOST_FAULT names (log entry 13), and that a record's header and its data words are
accesses of their own (log entry 25) are read from the rules by inference. -/
def Obligations.HostFaultResponse : Prop :=
  ∀ (data : Vector Word 16) (c : Fin 4) (b : Burst) (s : State), s.memory.burst = some b →
    (s.channel c).state = .running ∨ (s.channel c).state = .stopping ∨ (s.channel c).state = .failing →
    let ch := s.channel c
    let words := data.toList.take b.count
    let idle : State := { s with memory := { s.memory with burst := none } }
    let faulted (access : Nat) (addr : Word) := State.SegmentFails c .hostFault ⟨none, some access, some addr⟩
    let further (a : ReadAccess) : ReadAccess := { a with
      next := a.next + BitVec.ofNat 32 (4 * b.count), left := a.left - b.count, got := a.got ++ words }
    let regionStart : Nat := match ch.walk with
      | some w => w.regionStart + w.regionLength
      | none => 0
    let word1 (a : ReadAccess) : Word := (a.got ++ words).getD 1 0
    let length (a : ReadAccess) : Nat := if field (word1 a) 0 16 = 0 then 65536 else field (word1 a) 0 16
    let base (a : ReadAccess) : Word := (a.got ++ words).getD 0 0 &&& 0xFFFFFFFC
    let offset (q : WalkRequest) : Nat := q.position - regionStart
    let here (a : ReadAccess) (q : WalkRequest) : Nat := min q.left (regionStart + length a - q.position)
    let pieces (a : ReadAccess) (q : WalkRequest) : List Piece :=
      q.pieces ++ if here a q = 0 then [] else [⟨base a + BitVec.ofNat 32 (4 * offset q), here a q⟩]
    let walked (a : ReadAccess) (q : WalkRequest) : Channel := { ch with walk := some {
      descriptorAddress := a.base, regionBase := base a, regionLength := length a, last := bit (word1 a) 31
      regionStart := regionStart, offset := if here a q = 0 then 0 else offset q + here a q } }
    let whole (a : ReadAccess) : Prop := a.left = b.count
    let more (a : ReadAccess) (q : WalkRequest) : WalkRequest := ⟨q.position + here a q, q.left - here a q, pieces a q⟩
    let nextDescriptor (a : ReadAccess) : ReadAccess := ⟨a.base + 8, a.base + 8, 2, [], false⟩
    let shortAt (a : ReadAccess) : HaltDetail := ⟨none, none, some (BitVec.ofNat 32 (regionStart + length a))⟩
    (∀ p, b.owner = .preparation c → ch.preparation = some p →
      (∀ q a, p.stage = .fetching q a →
        (∃ t, exec (.burstResponse true data) s = .next t ∧
          faulted 1 a.base p.segment (idle.setChannel c { ch with preparation := none }) t) ∧
        (b.write = none → a.burstWords = b.count → b.count < a.left → exec (.burstResponse false data) s =
          .next (idle.setChannel c { ch with preparation := some { p with stage := .fetching q (further a) } })) ∧
        (b.write = none → a.burstWords = b.count → whole a → p.dropped = true → exec (.burstResponse false data) s =
          .next (idle.setChannel c { ch with preparation := none })) ∧
        (b.write = none → a.burstWords = b.count → whole a → p.dropped = false → ch.state = .running → 0 < q.left →
          regionStart ≤ q.position →
          (here a q = q.left → ch.captured.isSweep = true → exec (.burstResponse false data) s =
            .next (idle.setChannel c { walked a q with
              preparation := none, prepared := some ⟨p.segment, []⟩
              sweepHeader := (pieces a q).head?.map Piece.addr })) ∧
          (here a q = q.left → ch.captured.isSweep = false → ch.captured.kind = some .read →
            exec (.burstResponse false data) s = .next (idle.setChannel c { walked a q with
              preparation := none, prepared := some ⟨p.segment, pieces a q⟩ })) ∧
          (∀ first rest, here a q = q.left → ch.captured.isSweep = false → ch.captured.kind = some .write →
            pieces a q = first :: rest → exec (.burstResponse false data) s = .next (idle.setChannel c { walked a q with
              preparation := some ⟨p.segment,
                .payload (pieces a q) [] ⟨first.addr, first.addr, first.count, [], false⟩ rest, false⟩ })) ∧
          (here a q < q.left → bit (word1 a) 31 = false → exec (.burstResponse false data) s =
            .next (idle.setChannel c { walked a q with
              preparation := some ⟨p.segment, .fetching (more a q) (nextDescriptor a), false⟩ })) ∧
          (here a q < q.left → bit (word1 a) 31 = true → ∃ t, exec (.burstResponse false data) s = .next t ∧
            State.ChannelFails c .chainShort (shortAt a) p.segment
              (idle.setChannel c { walked a q with preparation := none }) t))) ∧
      (∀ placement got a later, p.stage = .payload placement got a later →
        (∃ t, exec (.burstResponse true data) s = .next t ∧
          faulted 2 a.base p.segment (idle.setChannel c { ch with preparation := none }) t) ∧
        (b.write = none → a.burstWords = b.count → b.count < a.left → exec (.burstResponse false data) s =
          .next (idle.setChannel c { ch with
            preparation := some { p with stage := .payload placement got (further a) later } })) ∧
        (b.write = none → a.burstWords = b.count → whole a → p.dropped = true → exec (.burstResponse false data) s =
          .next (idle.setChannel c { ch with preparation := none })) ∧
        (b.write = none → a.burstWords = b.count → whole a → p.dropped = false → ch.state = .running →
          (later = [] → exec (.burstResponse false data) s = .next (idle.setChannel c { ch with
            preparation := none, prepared := some ⟨p.segment, placement⟩, issueBuffer := got ++ a.got ++ words })) ∧
          (∀ piece rest, later = piece :: rest → exec (.burstResponse false data) s = .next (idle.setChannel c { ch with
            preparation := some { p with
              stage := .payload placement (got ++ a.got ++ words) ⟨piece.addr, piece.addr, piece.count, [], false⟩
                rest } }))))) ∧
    (∀ w later, b.owner = .completion c → ch.writes = w :: later →
      let staged (ch : Channel) (stage : WriteStage) : Channel := { ch with writes := { w with stage := stage } :: later }
      let released : State := match w.tag with
        | some k => idle.setTag k (s.releasedTag k)
        | none => idle
      let abandoned (ch : Channel) : State := released.setChannel c { ch with
        writes := later
        sweepCursor := match w.record with
          | some r => r.station
          | none => ch.sweepCursor }
      (∀ header q a, w.stage = .placing header q a →
        (∃ t, exec (.burstResponse true data) s = .next t ∧ faulted 1 a.base w.segment (abandoned ch) t) ∧
        (b.write = none → a.burstWords = b.count → b.count < a.left → exec (.burstResponse false data) s =
          .next (idle.setChannel c (staged ch (.placing header q (further a))))) ∧
        (b.write = none → a.burstWords = b.count → whole a → 0 < q.left → regionStart ≤ q.position →
          (∀ r, here a q = q.left → w.record = some r → exec (.burstResponse false data) s =
            .next (idle.setChannel c (staged (walked a q)
              (.writing (⟨header, header, [r.header]⟩ :: writesOf (pieces a q) r.words))))) ∧
          (here a q < q.left → bit (word1 a) 31 = false → exec (.burstResponse false data) s =
            .next (idle.setChannel c (staged (walked a q) (.placing header (more a q) (nextDescriptor a))))) ∧
          (here a q < q.left → bit (word1 a) 31 = true → ∃ t, exec (.burstResponse false data) s = .next t ∧
            State.SegmentFails c .chainShort (shortAt a) w.segment (abandoned (walked a q)) t))) ∧
      (∀ a rest, w.stage = .writing (a :: rest) →
        (∃ t, exec (.burstResponse true data) s = .next t ∧
          faulted (if w.record = none then 3 else 4) a.base w.segment (abandoned ch) t) ∧
        (a.burstWords < a.words.length → exec (.burstResponse false data) s =
          .next (idle.setChannel c (staged ch (.writing ({ a with
            next := a.next + BitVec.ofNat 32 (4 * a.burstWords), words := a.words.drop a.burstWords } :: rest))))) ∧
        (a.words.length ≤ a.burstWords → rest ≠ [] → exec (.burstResponse false data) s =
          .next (idle.setChannel c (staged ch (.writing rest)))) ∧
        (∀ k, a.words.length ≤ a.burstWords → rest = [] → w.tag = some k →
          let written : Channel := { ch with
            writes := later, completed := ch.completed + 1
            sweepPosition := ch.sweepPosition + (match w.record with
              | some r => 1 + r.words.length
              | none => 0)
            sweepCursor := match w.record with
              | some r => r.station + 1
              | none => ch.sweepCursor }
          let done := (idle.setTag k (s.releasedTag k)).setChannel c written
          (ch.state = .stopping → exec (.burstResponse false data) s =
            .next ((idle.setTag k (s.releasedTag k)).setChannel c { ch with writes := later })) ∧
          (ch.state = .failing → exec (.burstResponse false data) s = .next done) ∧
          (ch.state = .running → ch.captured.isSweep = true ∨ ch.completed + 1 < ch.captured.segments →
            exec (.burstResponse false data) s = .next done) ∧
          (ch.state = .running → ch.captured.isSweep = false → ch.captured.segments ≤ ch.completed + 1 →
            ∃ t, exec (.burstResponse false data) s = .next t ∧ State.EntryFinished c done t)) ∧
        (a.words.length ≤ a.burstWords → rest = [] → w.tag = none → exec (.burstResponse false data) s =
          .next (idle.setChannel c { ch with writes := later }))))

/-! ## What every step keeps -/

/-- The list store keeps its one form at every step (R1, R2). -/
def Obligations.StoreSoundKept : Prop :=
  ∀ s t : State, s.StoreSound → step s = .next t → t.StoreSound

/-- The notice queue, the droppable slots and the reply slots never hold more than their places (R110, R112, R128, R171,
R182). -/
def Obligations.QueuesSoundKept : Prop :=
  ∀ s t : State, s.QueuesSound → step s = .next t → t.QueuesSound

/-- The event ring never holds more than its size, a record in flight counted, but that a host may have released the
record in flight before its write failed (R179, R180; log entry 32). -/
def Obligations.RingSoundKept : Prop :=
  ∀ s t : State, s.RingSound → step s = .next t → t.RingSound

/-- The counters, the drop count and the match counts stay within 0 to 65535 (R134, R178, R186). -/
def Obligations.CountersSoundKept : Prop :=
  ∀ s t : State, s.CountersSound → step s = .next t → t.CountersSound

/-- The roster never holds the own address as PRESENT, it is all ABSENT in OFFLINE and EXCLUDED, and a farewell is pending
only in LEAVING (R152, R158). -/
def Obligations.StationSoundKept : Prop :=
  ∀ s t : State, s.StationSound → step s = .next t → t.StationSound

/-- The machine right after reset is sound. -/
def Obligations.ResetSound : Prop :=
  State.reset.StoreSound ∧ State.reset.QueuesSound ∧ State.reset.RingSound ∧ State.reset.CountersSound ∧
    State.reset.StationSound

/-- R145 to R162: but for a reset, which leads to OFFLINE, the station state changes only as the spec's transitions give.
-/
def Obligations.StationTransitions : Prop :=
  ∀ (i : Instr) (s t : State), s.StationSound → exec i s = .next t →
    (isReset i = true → t.station.state = .offline) ∧
    (isReset i = false → s.station.state.mayBecome t.station.state = true)

/-- R142, R143: the strap address changes at a power-on reset only, and the configuration record at a reset, or at a
CONFIGURE taken in OFFLINE. -/
def Obligations.ConfigurationKept : Prop :=
  ∀ (i : Instr) (s t : State), exec i s = .next t →
    ((∀ straps, i ≠ .powerOnReset straps) → t.station.strap = s.station.strap) ∧
    (isReset i = false → t.station.config ≠ s.station.config → isConfigure i = true ∧ s.station.state = .offline)

/-- R43: a HALTED channel at rest keeps its halt context, and stays at rest, the owner of no tag, whatever happens, until
a START, STOP or RESUME or a reset. -/
def Obligations.HaltedChannelKept : Prop :=
  ∀ (i : Instr) (c : Fin 4) (s t : State), s.haltedAtRest c → isReset i = false → isChannelCommand i = false →
    exec i s = .next t → t.channel c = s.channel c ∧ t.haltedAtRest c
end

