-- ==== Sys2Proof/Laws/State.lean ====
section
/-! SUPPORT. The small lemmas of State: what each named update of a table changes and what it leaves, true by
definition, so that no later proof unfolds a record update. -/

namespace Sys2Proof.Machine

/-! ## `setChannel` -/

@[simp] theorem State.setChannel_channel_self (s : State) (i : Fin 4) (x : Channel) :
    (s.setChannel i x).channel i = x := by
  simp [State.setChannel, State.channel]

theorem State.setChannel_channel_of_ne (s : State) {i j : Fin 4} (x : Channel) (h : i ≠ j) :
    (s.setChannel i x).channel j = s.channel j := by
  have h' : i.val ≠ j.val := fun e => h (Fin.ext e)
  simp [State.setChannel, State.channel, h']

theorem State.setChannel_channel (s : State) (i j : Fin 4) (x : Channel) :
    (s.setChannel i x).channel j = if i = j then x else s.channel j := by
  by_cases h : i = j
  · subst h; simp
  · simp [h, State.setChannel_channel_of_ne]

@[simp] theorem State.setChannel_channel_set (s : State) (i : Fin 4) (x y : Channel) :
    (s.setChannel i x).setChannel i y = s.setChannel i y := by
  simp [State.setChannel]

@[simp] theorem State.setChannel_listStore (s : State) (i : Fin 4) (x : Channel) :
    (s.setChannel i x).listStore = s.listStore := rfl
@[simp] theorem State.setChannel_memory (s : State) (i : Fin 4) (x : Channel) :
    (s.setChannel i x).memory = s.memory := rfl
@[simp] theorem State.setChannel_responder (s : State) (i : Fin 4) (x : Channel) :
    (s.setChannel i x).responder = s.responder := rfl
@[simp] theorem State.setChannel_notices (s : State) (i : Fin 4) (x : Channel) :
    (s.setChannel i x).notices = s.notices := rfl
@[simp] theorem State.setChannel_station (s : State) (i : Fin 4) (x : Channel) :
    (s.setChannel i x).station = s.station := rfl
@[simp] theorem State.setChannel_trunk (s : State) (i : Fin 4) (x : Channel) :
    (s.setChannel i x).trunk = s.trunk := rfl
@[simp] theorem State.setChannel_port (s : State) (i : Fin 4) (x : Channel) :
    (s.setChannel i x).port = s.port := rfl
@[simp] theorem State.setChannel_counters (s : State) (i : Fin 4) (x : Channel) :
    (s.setChannel i x).counters = s.counters := rfl
@[simp] theorem State.setChannel_writer (s : State) (i : Fin 4) (x : Channel) :
    (s.setChannel i x).writer = s.writer := rfl
@[simp] theorem State.setChannel_pending (s : State) (i : Fin 4) (x : Channel) :
    (s.setChannel i x).pending = s.pending := rfl
@[simp] theorem State.setChannel_engine_tags (s : State) (i : Fin 4) (x : Channel) :
    (s.setChannel i x).engine.tags = s.engine.tags := rfl
@[simp] theorem State.setChannel_engine_lastServed (s : State) (i : Fin 4) (x : Channel) :
    (s.setChannel i x).engine.lastServed = s.engine.lastServed := rfl
@[simp] theorem State.setChannel_tag_eq (s : State) (i : Fin 4) (x : Channel) (j : Fin 16) :
    (s.setChannel i x).tag j = s.tag j := rfl
@[simp] theorem State.setChannel_window_eq (s : State) (i : Fin 4) (x : Channel) (j : Fin 16) :
    (s.setChannel i x).window j = s.window j := rfl
@[simp] theorem State.setChannel_memo_eq (s : State) (i : Fin 4) (x : Channel) (j : Fin 40) :
    (s.setChannel i x).memo j = s.memo j := rfl
@[simp] theorem State.setChannel_booking_eq (s : State) (i : Fin 4) (x : Channel) (j : Fin 16) :
    (s.setChannel i x).booking j = s.booking j := rfl
@[simp] theorem State.setChannel_peer_eq (s : State) (i : Fin 4) (x : Channel) (j : Fin 40) :
    (s.setChannel i x).peer j = s.peer j := rfl
@[simp] theorem State.setChannel_ownAddress (s : State) (i : Fin 4) (x : Channel) :
    (s.setChannel i x).ownAddress = s.ownAddress := rfl
@[simp] theorem State.setChannel_onTrunk (s : State) (i : Fin 4) (x : Channel) :
    (s.setChannel i x).onTrunk = s.onTrunk := rfl
@[simp] theorem State.setChannel_ringSize (s : State) (i : Fin 4) (x : Channel) :
    (s.setChannel i x).ringSize = s.ringSize := rfl
@[simp] theorem State.setChannel_unconsumed (s : State) (i : Fin 4) (x : Channel) :
    (s.setChannel i x).unconsumed = s.unconsumed := rfl
@[simp] theorem State.setChannel_deadline (s : State) (i : Fin 4) (x : Channel) :
    (s.setChannel i x).deadline = s.deadline := rfl
@[simp] theorem State.setChannel_retryInterval (s : State) (i : Fin 4) (x : Channel) :
    (s.setChannel i x).retryInterval = s.retryInterval := rfl
@[simp] theorem State.setChannel_presenceInterval (s : State) (i : Fin 4) (x : Channel) :
    (s.setChannel i x).presenceInterval = s.presenceInterval := rfl

/-! ## `setTag` -/

@[simp] theorem State.setTag_tag_self (s : State) (i : Fin 16) (x : Tag) : (s.setTag i x).tag i = x := by
  simp [State.setTag, State.tag]

theorem State.setTag_tag_of_ne (s : State) {i j : Fin 16} (x : Tag) (h : i ≠ j) :
    (s.setTag i x).tag j = s.tag j := by
  have h' : i.val ≠ j.val := fun e => h (Fin.ext e)
  simp [State.setTag, State.tag, h']

theorem State.setTag_tag (s : State) (i j : Fin 16) (x : Tag) :
    (s.setTag i x).tag j = if i = j then x else s.tag j := by
  by_cases h : i = j
  · subst h; simp
  · simp [h, State.setTag_tag_of_ne]

@[simp] theorem State.setTag_tag_set (s : State) (i : Fin 16) (x y : Tag) :
    (s.setTag i x).setTag i y = s.setTag i y := by
  simp [State.setTag]

@[simp] theorem State.setTag_listStore (s : State) (i : Fin 16) (x : Tag) :
    (s.setTag i x).listStore = s.listStore := rfl
@[simp] theorem State.setTag_memory (s : State) (i : Fin 16) (x : Tag) :
    (s.setTag i x).memory = s.memory := rfl
@[simp] theorem State.setTag_responder (s : State) (i : Fin 16) (x : Tag) :
    (s.setTag i x).responder = s.responder := rfl
@[simp] theorem State.setTag_notices (s : State) (i : Fin 16) (x : Tag) :
    (s.setTag i x).notices = s.notices := rfl
@[simp] theorem State.setTag_station (s : State) (i : Fin 16) (x : Tag) :
    (s.setTag i x).station = s.station := rfl
@[simp] theorem State.setTag_trunk (s : State) (i : Fin 16) (x : Tag) : (s.setTag i x).trunk = s.trunk := rfl
@[simp] theorem State.setTag_port (s : State) (i : Fin 16) (x : Tag) : (s.setTag i x).port = s.port := rfl
@[simp] theorem State.setTag_counters (s : State) (i : Fin 16) (x : Tag) :
    (s.setTag i x).counters = s.counters := rfl
@[simp] theorem State.setTag_writer (s : State) (i : Fin 16) (x : Tag) :
    (s.setTag i x).writer = s.writer := rfl
@[simp] theorem State.setTag_pending (s : State) (i : Fin 16) (x : Tag) :
    (s.setTag i x).pending = s.pending := rfl
@[simp] theorem State.setTag_engine_channels (s : State) (i : Fin 16) (x : Tag) :
    (s.setTag i x).engine.channels = s.engine.channels := rfl
@[simp] theorem State.setTag_engine_lastServed (s : State) (i : Fin 16) (x : Tag) :
    (s.setTag i x).engine.lastServed = s.engine.lastServed := rfl
@[simp] theorem State.setTag_channel_eq (s : State) (i : Fin 16) (x : Tag) (j : Fin 4) :
    (s.setTag i x).channel j = s.channel j := rfl
@[simp] theorem State.setTag_window_eq (s : State) (i : Fin 16) (x : Tag) (j : Fin 16) :
    (s.setTag i x).window j = s.window j := rfl
@[simp] theorem State.setTag_memo_eq (s : State) (i : Fin 16) (x : Tag) (j : Fin 40) :
    (s.setTag i x).memo j = s.memo j := rfl
@[simp] theorem State.setTag_booking_eq (s : State) (i : Fin 16) (x : Tag) (j : Fin 16) :
    (s.setTag i x).booking j = s.booking j := rfl
@[simp] theorem State.setTag_peer_eq (s : State) (i : Fin 16) (x : Tag) (j : Fin 40) :
    (s.setTag i x).peer j = s.peer j := rfl
@[simp] theorem State.setTag_ownAddress (s : State) (i : Fin 16) (x : Tag) :
    (s.setTag i x).ownAddress = s.ownAddress := rfl
@[simp] theorem State.setTag_onTrunk (s : State) (i : Fin 16) (x : Tag) :
    (s.setTag i x).onTrunk = s.onTrunk := rfl
@[simp] theorem State.setTag_ringSize (s : State) (i : Fin 16) (x : Tag) :
    (s.setTag i x).ringSize = s.ringSize := rfl
@[simp] theorem State.setTag_unconsumed (s : State) (i : Fin 16) (x : Tag) :
    (s.setTag i x).unconsumed = s.unconsumed := rfl
@[simp] theorem State.setTag_deadline (s : State) (i : Fin 16) (x : Tag) :
    (s.setTag i x).deadline = s.deadline := rfl
@[simp] theorem State.setTag_retryInterval (s : State) (i : Fin 16) (x : Tag) :
    (s.setTag i x).retryInterval = s.retryInterval := rfl
@[simp] theorem State.setTag_presenceInterval (s : State) (i : Fin 16) (x : Tag) :
    (s.setTag i x).presenceInterval = s.presenceInterval := rfl

/-! ## `setWindow` -/

@[simp] theorem State.setWindow_window_self (s : State) (i : Fin 16) (x : Window) :
    (s.setWindow i x).window i = x := by
  simp [State.setWindow, State.window]

theorem State.setWindow_window_of_ne (s : State) {i j : Fin 16} (x : Window) (h : i ≠ j) :
    (s.setWindow i x).window j = s.window j := by
  have h' : i.val ≠ j.val := fun e => h (Fin.ext e)
  simp [State.setWindow, State.window, h']

theorem State.setWindow_window (s : State) (i j : Fin 16) (x : Window) :
    (s.setWindow i x).window j = if i = j then x else s.window j := by
  by_cases h : i = j
  · subst h; simp
  · simp [h, State.setWindow_window_of_ne]

@[simp] theorem State.setWindow_window_set (s : State) (i : Fin 16) (x y : Window) :
    (s.setWindow i x).setWindow i y = s.setWindow i y := by
  simp [State.setWindow]

@[simp] theorem State.setWindow_listStore (s : State) (i : Fin 16) (x : Window) :
    (s.setWindow i x).listStore = s.listStore := rfl
@[simp] theorem State.setWindow_engine (s : State) (i : Fin 16) (x : Window) :
    (s.setWindow i x).engine = s.engine := rfl
@[simp] theorem State.setWindow_memory (s : State) (i : Fin 16) (x : Window) :
    (s.setWindow i x).memory = s.memory := rfl
@[simp] theorem State.setWindow_notices (s : State) (i : Fin 16) (x : Window) :
    (s.setWindow i x).notices = s.notices := rfl
@[simp] theorem State.setWindow_station (s : State) (i : Fin 16) (x : Window) :
    (s.setWindow i x).station = s.station := rfl
@[simp] theorem State.setWindow_trunk (s : State) (i : Fin 16) (x : Window) :
    (s.setWindow i x).trunk = s.trunk := rfl
@[simp] theorem State.setWindow_port (s : State) (i : Fin 16) (x : Window) :
    (s.setWindow i x).port = s.port := rfl
@[simp] theorem State.setWindow_counters (s : State) (i : Fin 16) (x : Window) :
    (s.setWindow i x).counters = s.counters := rfl
@[simp] theorem State.setWindow_writer (s : State) (i : Fin 16) (x : Window) :
    (s.setWindow i x).writer = s.writer := rfl
@[simp] theorem State.setWindow_pending (s : State) (i : Fin 16) (x : Window) :
    (s.setWindow i x).pending = s.pending := rfl
@[simp] theorem State.setWindow_responder_queue (s : State) (i : Fin 16) (x : Window) :
    (s.setWindow i x).responder.queue = s.responder.queue := rfl
@[simp] theorem State.setWindow_responder_execution (s : State) (i : Fin 16) (x : Window) :
    (s.setWindow i x).responder.execution = s.responder.execution := rfl
@[simp] theorem State.setWindow_responder_memos (s : State) (i : Fin 16) (x : Window) :
    (s.setWindow i x).responder.memos = s.responder.memos := rfl
@[simp] theorem State.setWindow_channel_eq (s : State) (i : Fin 16) (x : Window) (j : Fin 4) :
    (s.setWindow i x).channel j = s.channel j := rfl
@[simp] theorem State.setWindow_tag_eq (s : State) (i : Fin 16) (x : Window) (j : Fin 16) :
    (s.setWindow i x).tag j = s.tag j := rfl
@[simp] theorem State.setWindow_memo_eq (s : State) (i : Fin 16) (x : Window) (j : Fin 40) :
    (s.setWindow i x).memo j = s.memo j := rfl
@[simp] theorem State.setWindow_booking_eq (s : State) (i : Fin 16) (x : Window) (j : Fin 16) :
    (s.setWindow i x).booking j = s.booking j := rfl
@[simp] theorem State.setWindow_peer_eq (s : State) (i : Fin 16) (x : Window) (j : Fin 40) :
    (s.setWindow i x).peer j = s.peer j := rfl
@[simp] theorem State.setWindow_ownAddress (s : State) (i : Fin 16) (x : Window) :
    (s.setWindow i x).ownAddress = s.ownAddress := rfl
@[simp] theorem State.setWindow_onTrunk (s : State) (i : Fin 16) (x : Window) :
    (s.setWindow i x).onTrunk = s.onTrunk := rfl
@[simp] theorem State.setWindow_ringSize (s : State) (i : Fin 16) (x : Window) :
    (s.setWindow i x).ringSize = s.ringSize := rfl
@[simp] theorem State.setWindow_unconsumed (s : State) (i : Fin 16) (x : Window) :
    (s.setWindow i x).unconsumed = s.unconsumed := rfl
@[simp] theorem State.setWindow_deadline (s : State) (i : Fin 16) (x : Window) :
    (s.setWindow i x).deadline = s.deadline := rfl
@[simp] theorem State.setWindow_retryInterval (s : State) (i : Fin 16) (x : Window) :
    (s.setWindow i x).retryInterval = s.retryInterval := rfl
@[simp] theorem State.setWindow_presenceInterval (s : State) (i : Fin 16) (x : Window) :
    (s.setWindow i x).presenceInterval = s.presenceInterval := rfl

/-! ## `setMemo` -/

@[simp] theorem State.setMemo_memo_self (s : State) (i : Fin 40) (x : Option Memo) :
    (s.setMemo i x).memo i = x := by
  simp [State.setMemo, State.memo]

theorem State.setMemo_memo_of_ne (s : State) {i j : Fin 40} (x : Option Memo) (h : i ≠ j) :
    (s.setMemo i x).memo j = s.memo j := by
  have h' : i.val ≠ j.val := fun e => h (Fin.ext e)
  simp [State.setMemo, State.memo, h']

theorem State.setMemo_memo (s : State) (i j : Fin 40) (x : Option Memo) :
    (s.setMemo i x).memo j = if i = j then x else s.memo j := by
  by_cases h : i = j
  · subst h; simp
  · simp [h, State.setMemo_memo_of_ne]

@[simp] theorem State.setMemo_memo_set (s : State) (i : Fin 40) (x y : Option Memo) :
    (s.setMemo i x).setMemo i y = s.setMemo i y := by
  simp [State.setMemo]

@[simp] theorem State.setMemo_listStore (s : State) (i : Fin 40) (x : Option Memo) :
    (s.setMemo i x).listStore = s.listStore := rfl
@[simp] theorem State.setMemo_engine (s : State) (i : Fin 40) (x : Option Memo) :
    (s.setMemo i x).engine = s.engine := rfl
@[simp] theorem State.setMemo_memory (s : State) (i : Fin 40) (x : Option Memo) :
    (s.setMemo i x).memory = s.memory := rfl
@[simp] theorem State.setMemo_notices (s : State) (i : Fin 40) (x : Option Memo) :
    (s.setMemo i x).notices = s.notices := rfl
@[simp] theorem State.setMemo_station (s : State) (i : Fin 40) (x : Option Memo) :
    (s.setMemo i x).station = s.station := rfl
@[simp] theorem State.setMemo_trunk (s : State) (i : Fin 40) (x : Option Memo) :
    (s.setMemo i x).trunk = s.trunk := rfl
@[simp] theorem State.setMemo_port (s : State) (i : Fin 40) (x : Option Memo) :
    (s.setMemo i x).port = s.port := rfl
@[simp] theorem State.setMemo_counters (s : State) (i : Fin 40) (x : Option Memo) :
    (s.setMemo i x).counters = s.counters := rfl
@[simp] theorem State.setMemo_writer (s : State) (i : Fin 40) (x : Option Memo) :
    (s.setMemo i x).writer = s.writer := rfl
@[simp] theorem State.setMemo_pending (s : State) (i : Fin 40) (x : Option Memo) :
    (s.setMemo i x).pending = s.pending := rfl
@[simp] theorem State.setMemo_responder_windows (s : State) (i : Fin 40) (x : Option Memo) :
    (s.setMemo i x).responder.windows = s.responder.windows := rfl
@[simp] theorem State.setMemo_responder_queue (s : State) (i : Fin 40) (x : Option Memo) :
    (s.setMemo i x).responder.queue = s.responder.queue := rfl
@[simp] theorem State.setMemo_responder_execution (s : State) (i : Fin 40) (x : Option Memo) :
    (s.setMemo i x).responder.execution = s.responder.execution := rfl
@[simp] theorem State.setMemo_channel_eq (s : State) (i : Fin 40) (x : Option Memo) (j : Fin 4) :
    (s.setMemo i x).channel j = s.channel j := rfl
@[simp] theorem State.setMemo_tag_eq (s : State) (i : Fin 40) (x : Option Memo) (j : Fin 16) :
    (s.setMemo i x).tag j = s.tag j := rfl
@[simp] theorem State.setMemo_window_eq (s : State) (i : Fin 40) (x : Option Memo) (j : Fin 16) :
    (s.setMemo i x).window j = s.window j := rfl
@[simp] theorem State.setMemo_booking_eq (s : State) (i : Fin 40) (x : Option Memo) (j : Fin 16) :
    (s.setMemo i x).booking j = s.booking j := rfl
@[simp] theorem State.setMemo_peer_eq (s : State) (i : Fin 40) (x : Option Memo) (j : Fin 40) :
    (s.setMemo i x).peer j = s.peer j := rfl
@[simp] theorem State.setMemo_ownAddress (s : State) (i : Fin 40) (x : Option Memo) :
    (s.setMemo i x).ownAddress = s.ownAddress := rfl
@[simp] theorem State.setMemo_onTrunk (s : State) (i : Fin 40) (x : Option Memo) :
    (s.setMemo i x).onTrunk = s.onTrunk := rfl
@[simp] theorem State.setMemo_ringSize (s : State) (i : Fin 40) (x : Option Memo) :
    (s.setMemo i x).ringSize = s.ringSize := rfl
@[simp] theorem State.setMemo_unconsumed (s : State) (i : Fin 40) (x : Option Memo) :
    (s.setMemo i x).unconsumed = s.unconsumed := rfl
@[simp] theorem State.setMemo_deadline (s : State) (i : Fin 40) (x : Option Memo) :
    (s.setMemo i x).deadline = s.deadline := rfl
@[simp] theorem State.setMemo_retryInterval (s : State) (i : Fin 40) (x : Option Memo) :
    (s.setMemo i x).retryInterval = s.retryInterval := rfl
@[simp] theorem State.setMemo_presenceInterval (s : State) (i : Fin 40) (x : Option Memo) :
    (s.setMemo i x).presenceInterval = s.presenceInterval := rfl

/-! ## `setBooking` -/

@[simp] theorem State.setBooking_booking_self (s : State) (i : Fin 16) (x : Booking) :
    (s.setBooking i x).booking i = x := by
  simp [State.setBooking, State.booking]

theorem State.setBooking_booking_of_ne (s : State) {i j : Fin 16} (x : Booking) (h : i ≠ j) :
    (s.setBooking i x).booking j = s.booking j := by
  have h' : i.val ≠ j.val := fun e => h (Fin.ext e)
  simp [State.setBooking, State.booking, h']

theorem State.setBooking_booking (s : State) (i j : Fin 16) (x : Booking) :
    (s.setBooking i x).booking j = if i = j then x else s.booking j := by
  by_cases h : i = j
  · subst h; simp
  · simp [h, State.setBooking_booking_of_ne]

@[simp] theorem State.setBooking_booking_set (s : State) (i : Fin 16) (x y : Booking) :
    (s.setBooking i x).setBooking i y = s.setBooking i y := by
  simp [State.setBooking]

@[simp] theorem State.setBooking_listStore (s : State) (i : Fin 16) (x : Booking) :
    (s.setBooking i x).listStore = s.listStore := rfl
@[simp] theorem State.setBooking_engine (s : State) (i : Fin 16) (x : Booking) :
    (s.setBooking i x).engine = s.engine := rfl
@[simp] theorem State.setBooking_memory (s : State) (i : Fin 16) (x : Booking) :
    (s.setBooking i x).memory = s.memory := rfl
@[simp] theorem State.setBooking_responder (s : State) (i : Fin 16) (x : Booking) :
    (s.setBooking i x).responder = s.responder := rfl
@[simp] theorem State.setBooking_station (s : State) (i : Fin 16) (x : Booking) :
    (s.setBooking i x).station = s.station := rfl
@[simp] theorem State.setBooking_trunk (s : State) (i : Fin 16) (x : Booking) :
    (s.setBooking i x).trunk = s.trunk := rfl
@[simp] theorem State.setBooking_port (s : State) (i : Fin 16) (x : Booking) :
    (s.setBooking i x).port = s.port := rfl
@[simp] theorem State.setBooking_counters (s : State) (i : Fin 16) (x : Booking) :
    (s.setBooking i x).counters = s.counters := rfl
@[simp] theorem State.setBooking_writer (s : State) (i : Fin 16) (x : Booking) :
    (s.setBooking i x).writer = s.writer := rfl
@[simp] theorem State.setBooking_pending (s : State) (i : Fin 16) (x : Booking) :
    (s.setBooking i x).pending = s.pending := rfl
@[simp] theorem State.setBooking_notices_queue (s : State) (i : Fin 16) (x : Booking) :
    (s.setBooking i x).notices.queue = s.notices.queue := rfl
@[simp] theorem State.setBooking_notices_lastServed (s : State) (i : Fin 16) (x : Booking) :
    (s.setBooking i x).notices.lastServed = s.notices.lastServed := rfl
@[simp] theorem State.setBooking_notices_ownEchoes (s : State) (i : Fin 16) (x : Booking) :
    (s.setBooking i x).notices.ownEchoes = s.notices.ownEchoes := rfl
@[simp] theorem State.setBooking_channel_eq (s : State) (i : Fin 16) (x : Booking) (j : Fin 4) :
    (s.setBooking i x).channel j = s.channel j := rfl
@[simp] theorem State.setBooking_tag_eq (s : State) (i : Fin 16) (x : Booking) (j : Fin 16) :
    (s.setBooking i x).tag j = s.tag j := rfl
@[simp] theorem State.setBooking_window_eq (s : State) (i : Fin 16) (x : Booking) (j : Fin 16) :
    (s.setBooking i x).window j = s.window j := rfl
@[simp] theorem State.setBooking_memo_eq (s : State) (i : Fin 16) (x : Booking) (j : Fin 40) :
    (s.setBooking i x).memo j = s.memo j := rfl
@[simp] theorem State.setBooking_peer_eq (s : State) (i : Fin 16) (x : Booking) (j : Fin 40) :
    (s.setBooking i x).peer j = s.peer j := rfl
@[simp] theorem State.setBooking_ownAddress (s : State) (i : Fin 16) (x : Booking) :
    (s.setBooking i x).ownAddress = s.ownAddress := rfl
@[simp] theorem State.setBooking_onTrunk (s : State) (i : Fin 16) (x : Booking) :
    (s.setBooking i x).onTrunk = s.onTrunk := rfl
@[simp] theorem State.setBooking_ringSize (s : State) (i : Fin 16) (x : Booking) :
    (s.setBooking i x).ringSize = s.ringSize := rfl
@[simp] theorem State.setBooking_unconsumed (s : State) (i : Fin 16) (x : Booking) :
    (s.setBooking i x).unconsumed = s.unconsumed := rfl
@[simp] theorem State.setBooking_deadline (s : State) (i : Fin 16) (x : Booking) :
    (s.setBooking i x).deadline = s.deadline := rfl
@[simp] theorem State.setBooking_retryInterval (s : State) (i : Fin 16) (x : Booking) :
    (s.setBooking i x).retryInterval = s.retryInterval := rfl
@[simp] theorem State.setBooking_presenceInterval (s : State) (i : Fin 16) (x : Booking) :
    (s.setBooking i x).presenceInterval = s.presenceInterval := rfl

/-! ## `setPeer` -/

@[simp] theorem State.setPeer_peer_self (s : State) (i : Fin 40) (x : Peer) : (s.setPeer i x).peer i = x := by
  simp [State.setPeer, State.peer]

theorem State.setPeer_peer_of_ne (s : State) {i j : Fin 40} (x : Peer) (h : i ≠ j) :
    (s.setPeer i x).peer j = s.peer j := by
  have h' : i.val ≠ j.val := fun e => h (Fin.ext e)
  simp [State.setPeer, State.peer, h']

theorem State.setPeer_peer (s : State) (i j : Fin 40) (x : Peer) :
    (s.setPeer i x).peer j = if i = j then x else s.peer j := by
  by_cases h : i = j
  · subst h; simp
  · simp [h, State.setPeer_peer_of_ne]

@[simp] theorem State.setPeer_peer_set (s : State) (i : Fin 40) (x y : Peer) :
    (s.setPeer i x).setPeer i y = s.setPeer i y := by
  simp [State.setPeer]

@[simp] theorem State.setPeer_listStore (s : State) (i : Fin 40) (x : Peer) :
    (s.setPeer i x).listStore = s.listStore := rfl
@[simp] theorem State.setPeer_engine (s : State) (i : Fin 40) (x : Peer) :
    (s.setPeer i x).engine = s.engine := rfl
@[simp] theorem State.setPeer_memory (s : State) (i : Fin 40) (x : Peer) :
    (s.setPeer i x).memory = s.memory := rfl
@[simp] theorem State.setPeer_responder (s : State) (i : Fin 40) (x : Peer) :
    (s.setPeer i x).responder = s.responder := rfl
@[simp] theorem State.setPeer_notices (s : State) (i : Fin 40) (x : Peer) :
    (s.setPeer i x).notices = s.notices := rfl
@[simp] theorem State.setPeer_trunk (s : State) (i : Fin 40) (x : Peer) :
    (s.setPeer i x).trunk = s.trunk := rfl
@[simp] theorem State.setPeer_port (s : State) (i : Fin 40) (x : Peer) : (s.setPeer i x).port = s.port := rfl
@[simp] theorem State.setPeer_counters (s : State) (i : Fin 40) (x : Peer) :
    (s.setPeer i x).counters = s.counters := rfl
@[simp] theorem State.setPeer_writer (s : State) (i : Fin 40) (x : Peer) :
    (s.setPeer i x).writer = s.writer := rfl
@[simp] theorem State.setPeer_pending (s : State) (i : Fin 40) (x : Peer) :
    (s.setPeer i x).pending = s.pending := rfl
@[simp] theorem State.setPeer_station_state (s : State) (i : Fin 40) (x : Peer) :
    (s.setPeer i x).station.state = s.station.state := rfl
@[simp] theorem State.setPeer_station_strap (s : State) (i : Fin 40) (x : Peer) :
    (s.setPeer i x).station.strap = s.station.strap := rfl
@[simp] theorem State.setPeer_station_config (s : State) (i : Fin 40) (x : Peer) :
    (s.setPeer i x).station.config = s.station.config := rfl
@[simp] theorem State.setPeer_station_listeningTimer (s : State) (i : Fin 40) (x : Peer) :
    (s.setPeer i x).station.listeningTimer = s.station.listeningTimer := rfl
@[simp] theorem State.setPeer_station_presenceTimer (s : State) (i : Fin 40) (x : Peer) :
    (s.setPeer i x).station.presenceTimer = s.station.presenceTimer := rfl
@[simp] theorem State.setPeer_station_fresh (s : State) (i : Fin 40) (x : Peer) :
    (s.setPeer i x).station.fresh = s.station.fresh := rfl
@[simp] theorem State.setPeer_station_pending (s : State) (i : Fin 40) (x : Peer) :
    (s.setPeer i x).station.pending = s.station.pending := rfl
@[simp] theorem State.setPeer_station_farewellOffered (s : State) (i : Fin 40) (x : Peer) :
    (s.setPeer i x).station.farewellOffered = s.station.farewellOffered := rfl
@[simp] theorem State.setPeer_station_events (s : State) (i : Fin 40) (x : Peer) :
    (s.setPeer i x).station.events = s.station.events := rfl
@[simp] theorem State.setPeer_channel_eq (s : State) (i : Fin 40) (x : Peer) (j : Fin 4) :
    (s.setPeer i x).channel j = s.channel j := rfl
@[simp] theorem State.setPeer_tag_eq (s : State) (i : Fin 40) (x : Peer) (j : Fin 16) :
    (s.setPeer i x).tag j = s.tag j := rfl
@[simp] theorem State.setPeer_window_eq (s : State) (i : Fin 40) (x : Peer) (j : Fin 16) :
    (s.setPeer i x).window j = s.window j := rfl
@[simp] theorem State.setPeer_memo_eq (s : State) (i : Fin 40) (x : Peer) (j : Fin 40) :
    (s.setPeer i x).memo j = s.memo j := rfl
@[simp] theorem State.setPeer_booking_eq (s : State) (i : Fin 40) (x : Peer) (j : Fin 16) :
    (s.setPeer i x).booking j = s.booking j := rfl
@[simp] theorem State.setPeer_ownAddress (s : State) (i : Fin 40) (x : Peer) :
    (s.setPeer i x).ownAddress = s.ownAddress := rfl
@[simp] theorem State.setPeer_onTrunk (s : State) (i : Fin 40) (x : Peer) :
    (s.setPeer i x).onTrunk = s.onTrunk := rfl
@[simp] theorem State.setPeer_ringSize (s : State) (i : Fin 40) (x : Peer) :
    (s.setPeer i x).ringSize = s.ringSize := rfl
@[simp] theorem State.setPeer_unconsumed (s : State) (i : Fin 40) (x : Peer) :
    (s.setPeer i x).unconsumed = s.unconsumed := rfl
@[simp] theorem State.setPeer_deadline (s : State) (i : Fin 40) (x : Peer) :
    (s.setPeer i x).deadline = s.deadline := rfl
@[simp] theorem State.setPeer_retryInterval (s : State) (i : Fin 40) (x : Peer) :
    (s.setPeer i x).retryInterval = s.retryInterval := rfl
@[simp] theorem State.setPeer_presenceInterval (s : State) (i : Fin 40) (x : Peer) :
    (s.setPeer i x).presenceInterval = s.presenceInterval := rfl

end Sys2Proof.Machine
end

