-- ==== Sys2Proof/Laws/EngineFrame.lean ====
section
/-! SUPPORT. What the operations of the engine and of the channels can do to the other blocks, said once for each: they
change channels and tags, clear a booking's latch, detach notices without moving them, and withdraw a try; everything
else stays as it was. -/

namespace Sys2Proof.Machine

/-- Everything that an operation of the engine leaves as it was. -/
structure EngineFrame (s t : State) : Prop where
  listStore : t.listStore = s.listStore
  memory : t.memory = s.memory
  responder : t.responder = s.responder
  station : t.station = s.station
  port : t.port = s.port
  counters : t.counters = s.counters
  writer : t.writer = s.writer
  pending : t.pending = s.pending
  replies : t.trunk.replies = s.trunk.replies
  yielding : t.trunk.yielding = s.trunk.yielding
  pointer : t.trunk.pointer = s.trunk.pointer
  line : t.trunk.line.map Try.bytes = s.trunk.line.map Try.bytes
  noticeLength : t.notices.queue.length = s.notices.queue.length
  noticeLast : t.notices.lastServed = s.notices.lastServed
  ownEchoes : t.notices.ownEchoes = s.notices.ownEchoes
  booking : ∀ b, { t.booking b with latch := false } = { s.booking b with latch := false }

namespace EngineFrame

theorem refl (s : State) : EngineFrame s s :=
  ⟨rfl, rfl, rfl, rfl, rfl, rfl, rfl, rfl, rfl, rfl, rfl, rfl, rfl, rfl, rfl, fun _ => rfl⟩

theorem trans {s t u : State} (h : EngineFrame s t) (k : EngineFrame t u) : EngineFrame s u where
  listStore := k.listStore.trans h.listStore
  memory := k.memory.trans h.memory
  responder := k.responder.trans h.responder
  station := k.station.trans h.station
  port := k.port.trans h.port
  counters := k.counters.trans h.counters
  writer := k.writer.trans h.writer
  pending := k.pending.trans h.pending
  replies := k.replies.trans h.replies
  yielding := k.yielding.trans h.yielding
  pointer := k.pointer.trans h.pointer
  line := k.line.trans h.line
  noticeLength := k.noticeLength.trans h.noticeLength
  noticeLast := k.noticeLast.trans h.noticeLast
  ownEchoes := k.ownEchoes.trans h.ownEchoes
  booking := fun b => (k.booking b).trans (h.booking b)

/-- The match count of a booking is kept. -/
theorem matchCount {s t : State} (h : EngineFrame s t) (b : Fin 16) :
    (t.booking b).matchCount = (s.booking b).matchCount := by
  have := congrArg Booking.matchCount (h.booking b)
  simpa using this

/-- The state of a booking is kept. -/
theorem bookingState {s t : State} (h : EngineFrame s t) (b : Fin 16) :
    (t.booking b).state = (s.booking b).state := by
  have := congrArg Booking.state (h.booking b)
  simpa using this

/-- A fold of operations of the engine is one. -/
theorem foldl {α : Type} {f : State → α → State} (hf : ∀ s a, EngineFrame s (f s a)) (l : List α) (s : State) :
    EngineFrame s (l.foldl f s) := by
  induction l generalizing s with
  | nil => exact refl s
  | cons a rest ih => exact (hf s a).trans (ih (f s a))

end EngineFrame

open EngineFrame

/-! ## The named updates -/

theorem setChannel_frame (s : State) (c : Fin 4) (ch : Channel) : EngineFrame s (s.setChannel c ch) :=
  ⟨rfl, rfl, rfl, rfl, rfl, rfl, rfl, rfl, rfl, rfl, rfl, rfl, rfl, rfl, rfl, fun _ => rfl⟩

theorem setTag_frame (s : State) (t : Fin 16) (tag : Tag) : EngineFrame s (s.setTag t tag) :=
  ⟨rfl, rfl, rfl, rfl, rfl, rfl, rfl, rfl, rfl, rfl, rfl, rfl, rfl, rfl, rfl, fun _ => rfl⟩

theorem withdrawTry_frame (f : TryFrame → Bool) (s : State) : EngineFrame s (withdrawTry f s) := by
  unfold withdrawTry
  split
  · next t ht =>
    split
    · exact ⟨rfl, rfl, rfl, rfl, rfl, rfl, rfl, rfl, rfl, rfl, rfl, by simp [ht], rfl, rfl, rfl, fun _ => rfl⟩
    · exact refl s
  · exact refl s

theorem detachNotices_frame (c : Fin 4) (s : State) : EngineFrame s (detachNotices c s) :=
  ⟨rfl, rfl, rfl, rfl, rfl, rfl, rfl, rfl, rfl, rfl, rfl, rfl, by simp [detachNotices], rfl, rfl, fun _ => rfl⟩

/-- Clearing a booking's latch is all that the engine does to a booking. -/
theorem clearLatch_frame (s : State) (b : Fin 16) : EngineFrame s (s.setBooking b { s.booking b with latch := false }) := by
  refine ⟨rfl, rfl, rfl, rfl, rfl, rfl, rfl, rfl, rfl, rfl, rfl, rfl, rfl, rfl, rfl, fun j => ?_⟩
  rw [State.setBooking_booking]
  split
  · next h => subst h; rfl
  · rfl

theorem releaseTag_frame (t : Fin 16) (s : State) : EngineFrame s (releaseTag t s) := setTag_frame ..

theorem releaseOwned_frame (t : Option (Fin 16)) (s : State) : EngineFrame s (releaseOwned t s) := by
  cases t
  · exact refl s
  · exact releaseTag_frame ..

theorem raiseHeld_frame (c : Fin 4) (e : Event) (s : State) : EngineFrame s (raiseHeld c e s) := setChannel_frame ..

theorem enterReporting_frame (c : Fin 4) (e : Event) (s : State) : EngineFrame s (enterReporting c e s) :=
  setChannel_frame ..

/-! ## Leaving RUNNING -/

/-- A release leaves the channels. -/
@[simp] theorem releaseTag_channel (t : Fin 16) (s : State) (c : Fin 4) : (releaseTag t s).channel c = s.channel c := rfl

theorem segmentFailed_frame (c : Fin 4) (n : Nat) (s : State) : EngineFrame s (segmentFailed c n s) := by
  unfold segmentFailed; split
  · exact setChannel_frame ..
  · exact refl s

theorem endBackoffTag_frame (c : Fin 4) (s : State) (t : Fin 16) : EngineFrame s (endBackoffTag c s t) := by
  unfold endBackoffTag; split
  · exact (releaseTag_frame ..).trans (segmentFailed_frame ..)
  · exact refl s

theorem endBackoffTags_frame (c : Fin 4) (s : State) : EngineFrame s (endBackoffTags c s) :=
  foldl (endBackoffTag_frame c) _ s

theorem cancelWrite_frame (s : State) (w : CompletionWrite) : EngineFrame s (cancelWrite s w) := by
  unfold cancelWrite; split
  · exact releaseTag_frame ..
  · exact refl s

theorem cancelWaitingWrites_frame (c : Fin 4) (s : State) : EngineFrame s (cancelWaitingWrites c s) :=
  (foldl cancelWrite_frame _ s).trans (setChannel_frame ..)

theorem stopChannel_frame (c : Fin 4) (s : State) : EngineFrame s (stopChannel c s) :=
  ((detachNotices_frame c s).trans (setChannel_frame ..)).trans
    ((cancelWaitingWrites_frame ..).trans (endBackoffTags_frame ..))

theorem failChannel_frame (c : Fin 4) (e : HaltError) (d : HaltDetail) (n : Nat) (s : State) :
    EngineFrame s (failChannel c e d n s) := by
  unfold failChannel; split
  · exact ((detachNotices_frame c s).trans (setChannel_frame ..)).trans (endBackoffTags_frame ..)
  · exact ((detachNotices_frame c s).trans (setChannel_frame ..)).trans (endBackoffTags_frame ..)
  · exact segmentFailed_frame ..
  · exact refl s

theorem badEntry_frame (c : Fin 4) (n : Nat) (s : State) : EngineFrame s (badEntry c n s) :=
  (setChannel_frame ..).trans (enterReporting_frame ..)

theorem reportEnd_frame (c : Fin 4) (s : State) : EngineFrame s (reportEnd c s) := by
  unfold reportEnd
  dsimp only
  split
  · split
    · exact enterReporting_frame ..
    · exact enterReporting_frame ..
    · exact refl s
  · exact refl s

/-! ## Beginning and finishing entries -/

theorem endUnmet_frame (c : Fin 4) (r : Result) (e : HaltError) (d : HaltDetail) (s : State) :
    EngineFrame s (endUnmet c r e d s) := by
  unfold endUnmet; split
  · exact (setChannel_frame ..).trans (raiseHeld_frame ..)
  · exact failChannel_frame ..

theorem beginWait_frame (c : Fin 4) (b : Fin 16) (s : State) : EngineFrame s (beginWait c b s).1 := by
  unfold beginWait
  dsimp only
  split
  · exact clearLatch_frame s b
  · split
    · exact endUnmet_frame ..
    · exact setChannel_frame ..

theorem enterEntry_frame (c : Fin 4) (s : State) : EngineFrame s (enterEntry c s).1 := by
  unfold enterEntry
  dsimp only
  split
  · exact refl s
  · exact refl s
  · exact refl s
  · exact refl s
  · exact setChannel_frame ..
  · split
    · exact beginWait_frame ..
    · exact refl s
  · exact raiseHeld_frame ..
  · exact enterReporting_frame ..
  · exact refl s

theorem runFrom_frame (left : Nat) (c : Fin 4) (s : State) : EngineFrame s (runFrom left c s) := by
  induction left generalizing s with
  | zero => exact (setChannel_frame ..).trans (badEntry_frame ..)
  | succ left ih =>
    simp only [runFrom]
    split
    · exact (setChannel_frame ..).trans (badEntry_frame ..)
    · split
      · next t ht =>
        have := enterEntry_frame c (s.setChannel c
          ((s.channel c).beginAt (1024 - (left + 1)) (s.entry (1024 - (left + 1)))))
        rw [ht] at this
        exact ((setChannel_frame ..).trans this).trans (ih t)
      · next t ht =>
        have := enterEntry_frame c (s.setChannel c
          ((s.channel c).beginAt (1024 - (left + 1)) (s.entry (1024 - (left + 1)))))
        rw [ht] at this
        exact (setChannel_frame ..).trans this

theorem beginEntry_frame (n : Nat) (c : Fin 4) (s : State) : EngineFrame s (beginEntry n c s) := runFrom_frame ..

theorem finishEntry_frame (c : Fin 4) (s : State) : EngineFrame s (finishEntry c s) := by
  unfold finishEntry
  dsimp only
  split
  · exact beginEntry_frame ..
  · exact raiseHeld_frame ..

theorem finishIfResolved_frame (c : Fin 4) (s : State) : EngineFrame s (finishIfResolved c s) := by
  unfold finishIfResolved
  dsimp only
  split
  · exact finishEntry_frame ..
  · exact refl s

theorem startChannel_frame (src : StartSource) (n : Nat) (c : Fin 4) (s : State) :
    EngineFrame s (startChannel src n c s) := (setChannel_frame ..).trans (beginEntry_frame ..)

theorem resumeChannel_frame (c : Fin 4) (s : State) : EngineFrame s (resumeChannel c s) := by
  unfold resumeChannel
  dsimp only
  split
  · exact startChannel_frame ..
  · split
    · exact beginEntry_frame ..
    · split
      · exact (setChannel_frame ..).trans (badEntry_frame ..)
      · split
        · next t ht =>
          have := enterEntry_frame c ((s.setChannel c
            { s.channel c with captured := s.entry (s.channel c).entryIndex }).setChannel c
            ((s.setChannel c { s.channel c with captured := s.entry (s.channel c).entryIndex }).channel c).resumeAt)
          rw [ht] at this
          exact (((setChannel_frame ..).trans (setChannel_frame ..)).trans this).trans (beginEntry_frame ..)
        · next t ht =>
          have := enterEntry_frame c ((s.setChannel c
            { s.channel c with captured := s.entry (s.channel c).entryIndex }).setChannel c
            ((s.setChannel c { s.channel c with captured := s.entry (s.channel c).entryIndex }).channel c).resumeAt)
          rw [ht] at this
          exact ((setChannel_frame ..).trans (setChannel_frame ..)).trans this

theorem leaveChannel_frame (c : Fin 4) (s : State) : EngineFrame s (leaveChannel c s) := by
  unfold leaveChannel
  dsimp only
  split
  · exact (setChannel_frame ..).trans (failChannel_frame ..)
  · split
    · exact failChannel_frame ..
    · exact refl s

/-! ## Outcomes -/

theorem resolveSegment_frame (c : Fin 4) (s : State) : EngineFrame s (resolveSegment c s) := setChannel_frame ..

theorem tolerateSegment_frame (c : Fin 4) (r : Result) (s : State) : EngineFrame s (tolerateSegment c r s) :=
  (setChannel_frame ..).trans (resolveSegment_frame ..)

theorem moveCursor_frame (c : Fin 4) (n : Nat) (s : State) : EngineFrame s (moveCursor c n s) := setChannel_frame ..

theorem askWrite_frame (c : Fin 4) (t : Fin 16) (r : Option SweepRecord) (w : WriteStage) (s : State) :
    EngineFrame s (askWrite c t r w s) := (setTag_frame ..).trans (setChannel_frame ..)

theorem beginData_frame (c : Fin 4) (t : Fin 16) (s : State) : EngineFrame s (beginData c t s) := askWrite_frame ..

theorem chainShort_frame (c : Fin 4) (n p : Nat) (s : State) : EngineFrame s (chainShort c n p s) :=
  failChannel_frame ..

theorem hostFault_frame (c : Fin 4) (n : Nat) (a : FaultAccess) (w : Word) (s : State) :
    EngineFrame s (hostFault c n a w s) := failChannel_frame ..

theorem beginRecord_frame (c : Fin 4) (t : Fin 16) (r : Result) (s : State) : EngineFrame s (beginRecord c t r s) := by
  unfold beginRecord
  dsimp only
  generalize (if r = Result.accepted then List.take (s.tag t).count (s.tag t).payload else []) = words
  split
  · exact (setChannel_frame ..).trans (askWrite_frame ..)
  · split
    · exact ((setChannel_frame ..).trans (setChannel_frame ..)).trans (askWrite_frame ..)
    · exact ((setChannel_frame ..).trans (setChannel_frame ..)).trans (askWrite_frame ..)
    · exact ((setChannel_frame ..).trans (setChannel_frame ..)).trans
        ((releaseTag_frame ..).trans ((moveCursor_frame ..).trans (chainShort_frame ..)))

theorem sweepOutcome_frame (c : Fin 4) (t : Fin 16) (r : Result) (s : State) :
    EngineFrame s (sweepOutcome c t r s) := by
  unfold sweepOutcome
  dsimp only
  split
  · exact beginRecord_frame ..
  · split
    · exact ((releaseTag_frame ..).trans (moveCursor_frame ..)).trans (resolveSegment_frame ..)
    · exact ((releaseTag_frame ..).trans (moveCursor_frame ..)).trans (tolerateSegment_frame ..)

theorem runningOutcome_frame (c : Fin 4) (t : Fin 16) (r : Result) (s : State) :
    EngineFrame s (runningOutcome c t r s) := by
  unfold runningOutcome
  dsimp only
  split
  · exact sweepOutcome_frame ..
  · split
    · exact setTag_frame ..
    · split
      · exact beginData_frame ..
      · exact ((releaseTag_frame ..).trans (resolveSegment_frame ..)).trans (finishIfResolved_frame ..)
    · exact ((releaseTag_frame ..).trans (tolerateSegment_frame ..)).trans (finishIfResolved_frame ..)
    · exact (releaseTag_frame ..).trans (failChannel_frame ..)

theorem failingOutcome_frame (c : Fin 4) (t : Fin 16) (r : Result) (s : State) :
    EngineFrame s (failingOutcome c t r s) := by
  unfold failingOutcome
  dsimp only
  split
  · exact sweepOutcome_frame ..
  · split
    · split
      · exact beginData_frame ..
      · exact (releaseTag_frame ..).trans (resolveSegment_frame ..)
    · split
      · exact (releaseTag_frame ..).trans (tolerateSegment_frame ..)
      · exact (releaseTag_frame ..).trans (segmentFailed_frame ..)

theorem attemptOutcome_frame (t : Fin 16) (r : Result) (s : State) : EngineFrame s (attemptOutcome t r s) := by
  unfold attemptOutcome
  dsimp only
  generalize hu : State.setTag (withdrawTry (TryFrame.isRequestOf t) s) t _ = u
  refine EngineFrame.trans (t := u) (hu ▸ (withdrawTry_frame _ s).trans (setTag_frame ..)) ?_
  split
  · exact refl _
  · split
    · exact runningOutcome_frame ..
    · exact failingOutcome_frame ..
    · exact releaseTag_frame ..

theorem popWrite_frame (c : Fin 4) (s : State) : EngineFrame s (popWrite c s) := setChannel_frame ..

theorem setWriteStage_frame (c : Fin 4) (w : CompletionWrite) (g : WriteStage) (s : State) :
    EngineFrame s (setWriteStage c w g s) := setChannel_frame ..

theorem writeDone_frame (c : Fin 4) (w : CompletionWrite) (s : State) : EngineFrame s (writeDone c w s) := by
  unfold writeDone
  dsimp only
  refine (releaseOwned_frame w.tag s).trans ?_
  split
  · split
    · exact ((setChannel_frame ..).trans (moveCursor_frame ..)).trans
        ((resolveSegment_frame ..).trans (finishIfResolved_frame ..))
    · exact (resolveSegment_frame ..).trans (finishIfResolved_frame ..)
  · exact refl _

/-! ## Preparation, grants, expiries -/

theorem segmentPrepared_frame (c : Fin 4) (n : Nat) (p : List Piece) (s : State) :
    EngineFrame s (segmentPrepared c n p s) := setChannel_frame ..

theorem segmentPlaced_frame (c : Fin 4) (n : Nat) (p : List Piece) (s : State) :
    EngineFrame s (segmentPlaced c n p s) := by
  unfold segmentPlaced
  dsimp only
  split
  · exact (setChannel_frame ..).trans (segmentPrepared_frame ..)
  · split
    · exact segmentPrepared_frame ..
    · split
      · exact segmentPrepared_frame ..
      · exact setChannel_frame ..

theorem walkPreparation_frame (c : Fin 4) (n : Nat) (r : WalkRequest) (s : State) :
    EngineFrame s (walkPreparation c n r s) := by
  unfold walkPreparation
  dsimp only
  split
  · exact (setChannel_frame ..).trans (segmentPlaced_frame ..)
  · exact (setChannel_frame ..).trans (chainShort_frame ..)
  · exact (setChannel_frame ..).trans (setChannel_frame ..)

theorem prepareSegment_frame (c : Fin 4) (s : State) : EngineFrame s (prepareSegment c s) := by
  unfold prepareSegment
  dsimp only
  split
  · exact refl s
  · split
    · exact finishEntry_frame ..
    · split
      · exact walkPreparation_frame ..
      · exact segmentPrepared_frame ..

theorem attemptBegins_frame (t : Fin 16) (s : State) : EngineFrame s (attemptBegins t s) := by
  unfold attemptBegins
  split
  · exact refl s
  · exact attemptOutcome_frame ..

theorem lastServed_frame (s : State) (c : Fin 4) :
    EngineFrame s { s with engine := { s.engine with lastServed := c } } :=
  ⟨rfl, rfl, rfl, rfl, rfl, rfl, rfl, rfl, rfl, rfl, rfl, rfl, rfl, rfl, rfl, fun _ => rfl⟩

theorem grantTag_frame (c : Fin 4) (t : Fin 16) (p : PreparedSegment) (n : Nat) (s : State) :
    EngineFrame s (grantTag c t p n s) := by
  unfold grantTag
  exact (setTag_frame ..).trans ((setChannel_frame ..).trans ((lastServed_frame ..).trans (attemptBegins_frame ..)))

theorem discardSweep_frame (c : Fin 4) (s : State) : EngineFrame s (discardSweep c s) :=
  (setChannel_frame ..).trans (finishEntry_frame ..)

theorem grantFrom_frame (l : List (Fin 4)) (s : State) : EngineFrame s (grantFrom l s) := by
  induction l generalizing s with
  | nil => exact refl s
  | cons c rest ih =>
    simp only [grantFrom]
    split
    · split
      · exact grantTag_frame ..
      · exact (discardSweep_frame ..).trans (ih _)
      · exact refl s
    · exact ih s

theorem reissue_frame (t : Fin 16) (s : State) : EngineFrame s (reissue t s) :=
  (setTag_frame ..).trans (attemptBegins_frame ..)

theorem deadlineExpired_frame (t : Fin 16) (s : State) : EngineFrame s (deadlineExpired t s) := by
  unfold deadlineExpired
  dsimp only
  split
  · exact (setTag_frame ..).trans (attemptOutcome_frame ..)
  · exact refl s

theorem retryExpired_frame (t : Fin 16) (s : State) : EngineFrame s (retryExpired t s) := by
  unfold retryExpired
  dsimp only
  split
  · exact reissue_frame ..
  · exact refl s

theorem coolingExpired_frame (t : Fin 16) (s : State) : EngineFrame s (coolingExpired t s) := by
  unfold coolingExpired
  dsimp only
  split
  · exact setTag_frame ..
  · exact refl s

theorem tagPeerLost_frame (a : Nat) (s : State) (t : Fin 16) : EngineFrame s (tagPeerLost a s t) := by
  unfold tagPeerLost
  dsimp only
  split
  · exact (setTag_frame ..).trans (attemptOutcome_frame ..)
  · exact refl s

/-- A reply completes its tag's attempt, or is counted as stale (R58, R61). -/
theorem replyArrival_frame (r : ReceivedReply) (s : State) :
    EngineFrame s (replyArrival r s) ∨
      replyArrival r s = { s with counters := { s.counters with staleReplies := satInc s.counters.staleReplies } } := by
  unfold replyArrival
  dsimp only
  split
  · exact .inl ((setTag_frame ..).trans (attemptOutcome_frame ..))
  · exact .inr rfl

/-! ## The engine's part of a burst response -/

theorem setPreparation_frame (c : Fin 4) (p : Option Preparation) (s : State) :
    EngineFrame s (setPreparation c p s) := setChannel_frame ..

theorem preparationResponse_frame (c : Fin 4) (error : Bool) (words : List Word) (s : State) :
    EngineFrame s (preparationResponse c error words s) := by
  unfold preparationResponse
  dsimp only
  split
  · exact refl s
  · split
    · split
      · exact (setPreparation_frame ..).trans (hostFault_frame ..)
      · split
        · exact setPreparation_frame ..
        · split
          · exact setPreparation_frame ..
          · exact (setChannel_frame ..).trans (walkPreparation_frame ..)
    · split
      · exact (setPreparation_frame ..).trans (hostFault_frame ..)
      · split
        · exact setPreparation_frame ..
        · split
          · exact setPreparation_frame ..
          · split
            · exact (setChannel_frame ..).trans (segmentPrepared_frame ..)
            · exact setPreparation_frame ..

theorem abandonWrite_frame (c : Fin 4) (w : CompletionWrite) (s : State) : EngineFrame s (abandonWrite c w s) := by
  unfold abandonWrite
  dsimp only
  split
  · exact (popWrite_frame ..).trans ((releaseOwned_frame ..).trans (moveCursor_frame ..))
  · exact (popWrite_frame ..).trans (releaseOwned_frame ..)

theorem walkRecord_frame (c : Fin 4) (w : CompletionWrite) (h : Word) (r : WalkRequest) (s : State) :
    EngineFrame s (walkRecord c w h r s) := by
  unfold walkRecord
  dsimp only
  split
  · exact (setChannel_frame ..).trans (setWriteStage_frame ..)
  · exact (setChannel_frame ..).trans (setWriteStage_frame ..)
  · exact (setChannel_frame ..).trans ((abandonWrite_frame ..).trans (chainShort_frame ..))

theorem writeFaulted_frame (c : Fin 4) (w : CompletionWrite) (a : FaultAccess) (addr : Word) (s : State) :
    EngineFrame s (writeFaulted c w a addr s) := by
  unfold writeFaulted
  exact (abandonWrite_frame ..).trans (hostFault_frame ..)

theorem completionResponse_frame (c : Fin 4) (error : Bool) (words : List Word) (s : State) :
    EngineFrame s (completionResponse c error words s) := by
  unfold completionResponse
  dsimp only
  split
  · exact refl s
  · split
    · split
      · exact writeFaulted_frame ..
      · split
        · exact setWriteStage_frame ..
        · exact (setChannel_frame ..).trans (walkRecord_frame ..)
    · exact (popWrite_frame ..).trans (writeDone_frame ..)
    · split
      · exact writeFaulted_frame ..
      · split
        · exact setWriteStage_frame ..
        · split
          · exact setWriteStage_frame ..
          · exact (popWrite_frame ..).trans (writeDone_frame ..)

end Sys2Proof.Machine
end

