-- ==== Sys2Proof/Laws/Bus.lean ====
section
/-! SUPPORT. Which bursts the requesters of the local bus present, and what their grant begins, said once: a proof about a grant
cites these instead of unfolding the accesses. -/

namespace Sys2Proof.Machine

/-- How many words lie in an aligned block from an address on. -/
theorem blockLeft_eq (addr : Word) : blockLeft addr = 16 - addr.toNat / 4 % 16 := by
  simp [blockLeft, field, Nat.shiftRight_eq_div_pow]

/-- The next burst of a read is the one it presents (R98). -/
theorem readBurst_iff (a : ReadAccess) (owner : BurstOwner) (b : Burst) :
    State.ReadBurst owner a b ↔ a.burst owner = b := by
  simp only [State.ReadBurst, ReadAccess.burst, ReadAccess.burstWords, blockLeft_eq]
  exact eq_comm

/-- The next burst of a write is the one it presents (R98). -/
theorem writeBurst_iff (a : WriteAccess) (owner : BurstOwner) (b : Burst) :
    State.WriteBurst owner a b ↔ a.burst owner = b := by
  simp only [State.WriteBurst, WriteAccess.burst, WriteAccess.burstWords, blockLeft_eq]
  exact eq_comm

/-- The burst that a channel presents (R100). -/
theorem channelBurst_iff (s : State) (c : Fin 4) (b : Burst) :
    s.channelBurst c = some b ↔ ∃ begun, s.ChannelPresents c b begun := by
  simp only [State.channelBurst, State.ChannelPresents, readBurst_iff, writeBurst_iff]
  have live : ((s.channel c).state = .running || (s.channel c).state = .stopping || (s.channel c).state = .failing) = true ↔
      ((s.channel c).state = .running ∨ (s.channel c).state = .stopping ∨ (s.channel c).state = .failing) := by
    simp [or_assoc]
  by_cases h : (s.channel c).state = .running ∨ (s.channel c).state = .stopping ∨ (s.channel c).state = .failing
  · rw [if_pos (live.mpr h)]
    simp only [h, true_and]
    cases hw : (s.channel c).writes with
    | cons w later =>
      rcases w with ⟨tag, segment, record, stage, begun⟩
      rcases stage with ⟨header, q, a⟩ | ⟨_ | ⟨a, rest⟩⟩ <;> simp [CompletionWrite.burst]
    | nil =>
      cases hp : (s.channel c).preparation with
      | none => simp
      | some p =>
        rcases p with ⟨segment, ⟨q, a⟩ | ⟨placement, got, a, later⟩, dropped⟩ <;> simp [Preparation.burst]
  · rw [if_neg (mt live.mp h)]
    simp [h]

/-- A channel's access begins when its burst is granted (R94, R100). -/
theorem markBegun_of_channelPresents (s : State) (c : Fin 4) (b : Burst) (begun : Channel) (x : Option Burst) (o : BusOrder)
    (h : s.ChannelPresents c b begun) :
    markBegun b { s with memory := { s.memory with burst := x, order := o } } =
      { s.setChannel c begun with memory := { s.memory with burst := x, order := o, engineLast := c } } := by
  obtain ⟨-, ⟨w, later, hw, rfl, ⟨header, q, a, -, rfl⟩ | ⟨a, rest, -, rfl⟩⟩ |
    ⟨p, hw, hp, ⟨q, a, hs, rfl, rfl⟩ | ⟨placement, got, a, later, hs, rfl, rfl⟩⟩⟩ := h
  all_goals
    have hch (m : MemoryUnit) : State.channel { s with memory := m } c = s.channel c := rfl
    simp only [markBegun, hch]
  · rw [hw]; rfl
  · rw [hw]; rfl
  · rw [hp]; simp only [Option.map_some, Preparation.begin, hs]; rfl
  · rw [hp]; simp only [Option.map_some, Preparation.begin, hs]; rfl

/-- A search through the rotation after the last served channel finds the first one that has a property (R53, R100). -/
theorem find_rotation4 (p : Fin 4 → Bool) (last c : Fin 4) : (rotation4 last).find? p = some c ↔
    p c = true ∧ ∀ d : Fin 4, (d - (last + 1)).val < (c - (last + 1)).val → p d = false := by
  have table : ∀ (a b c' d : Bool) (last c : Fin 4), (rotation4 last).find? (fun i => #v[a, b, c', d][i.val]) = some c ↔
      #v[a, b, c', d][c.val] = true ∧
        ∀ e : Fin 4, (e - (last + 1)).val < (c - (last + 1)).val → #v[a, b, c', d][e.val] = false := by decide +kernel
  have e : p = fun i : Fin 4 => #v[p 0, p 1, p 2, p 3][i.val] := by
    funext i; match i with | 0 | 1 | 2 | 3 => rfl
  have h := table (p 0) (p 1) (p 2) (p 3) last c
  rw [← e] at h
  rw [h]
  have e' (i : Fin 4) : #v[p 0, p 1, p 2, p 3][i.val] = p i := (congrFun e i).symm
  simp only [e']

/-- A channel presents no burst. -/
theorem channelBurst_eq_none_iff (s : State) (d : Fin 4) :
    (s.channelBurst d).isSome = false ↔ ∀ b begun, ¬ s.ChannelPresents d b begun := by
  cases h : s.channelBurst d with
  | none => simp; exact fun b begun hp => by simpa [h] using (channelBurst_iff s d b).mpr ⟨begun, hp⟩
  | some b =>
    obtain ⟨begun, hp⟩ := (channelBurst_iff s d b).mp h
    simp; exact ⟨b, begun, hp⟩

/-- The burst that a requester presents (R99). -/
theorem requesterBurst_iff (s : State) (r : Requester) (b : Burst) :
    s.requesterBurst r = some b ↔ ∃ t, s.Presents r b t := by
  cases r with
  | writer =>
    simp only [State.requesterBurst, State.writerBurst, State.Presents, Option.map_eq_some_iff]
    exact ⟨fun ⟨w, h, e⟩ => ⟨s, rfl, w, h, e.symm⟩, fun ⟨_, _, w, h, e⟩ => ⟨w, h, e.symm⟩⟩
  | responder =>
    simp only [State.requesterBurst, State.responderBurst, State.Presents, readBurst_iff, writeBurst_iff]
    cases he : s.responder.execution with
    | none => simp
    | some e =>
      cases hq : s.responder.queue with
      | nil => simp
      | cons item rest => rcases e with ⟨_ | _ | _ | _, discarded⟩ <;> simp [eq_comm]
  | engine =>
    simp only [State.requesterBurst, State.engineChannel, Option.bind_eq_some_iff, find_rotation4, State.Presents,
      channelBurst_eq_none_iff]
    constructor
    · rintro ⟨c, ⟨-, before⟩, h⟩
      obtain ⟨begun, hp⟩ := (channelBurst_iff s c b).mp h
      exact ⟨_, c, begun, hp, before, rfl⟩
    · rintro ⟨t, c, begun, hp, before, rfl⟩
      have h := (channelBurst_iff s c b).mpr ⟨begun, hp⟩
      exact ⟨c, ⟨by rw [h]; rfl, before⟩, h⟩

/-- A requester's access begins when its burst is granted (R99). -/
theorem markBegun_of_presents (s t : State) (r : Requester) (b : Burst) (x : Option Burst) (o : BusOrder)
    (h : s.Presents r b t) :
    markBegun b { s with memory := { s.memory with burst := x, order := o } } =
      { t with memory := { t.memory with burst := x, order := o } } := by
  cases r with
  | writer => obtain ⟨rfl, w, -, rfl⟩ := h; rfl
  | responder =>
    obtain ⟨e, item, rest, he, -, ⟨a, hs, rfl, rfl⟩ | ⟨a, hs, rfl, rfl⟩ | ⟨hs, rfl, rfl⟩⟩ := h <;>
      rcases e with ⟨stage, discarded⟩ <;> subst hs <;> simp [markBegun, he]
  | engine =>
    obtain ⟨c, begun, h, -, rfl⟩ := h
    rw [markBegun_of_channelPresents s c b begun x o h]

end Sys2Proof.Machine
end

