-- ==== Sys2Proof/Laws/Failing.lean ====
section
/-! SUPPORT. What a halt-causing cause can do to its channel, said once: a proof about an entry, an outcome or a burst's
response cites these instead of unfolding the operations. -/

namespace Sys2Proof.Machine

/-- The release of a tag's transaction, as the statements write it (R68). -/
theorem releaseTag_eq (k : Fin 16) (s : State) : releaseTag k s = s.setTag k (s.releasedTag k) := rfl

/-- The context that a channel leaves RUNNING with, as the statements write it. -/
theorem leaveRunning_eq (ch : Channel) : ch.leaveRunning = ch.left := by
  unfold Channel.leaveRunning Channel.left dropPreparation
  cases ch.preparation <;> rfl

/-- A failed segment of a FAILING channel (R41). -/
theorem segmentFailed_of_failing (c : Fin 4) (n : Nat) (s : State) (h : (s.channel c).state = .failing) :
    segmentFailed c n s = s.setChannel c { s.channel c with
      resumeSegment := some (min n ((s.channel c).resumeSegment.getD n)) } := by
  unfold segmentFailed; exact if_pos h

/-- All that the end of some BACKOFF tags of a FAILING channel does (R41, R71). -/
theorem endBackoff_foldl (c : Fin 4) (l : List (Fin 16)) (s : State) (n : Nat) (hf : (s.channel c).state = .failing)
    (hn : (s.channel c).resumeSegment = some n) :
    let t := l.foldl (endBackoffTag c) s
    (∃ m ≤ n, (∀ k ∈ l, s.endsWith c k → m ≤ (s.tag k).segment) ∧
      (m = n ∨ ∃ k, s.endsWith c k ∧ (s.tag k).segment = m) ∧
      t.channel c = { s.channel c with resumeSegment := some m }) ∧
    (∀ d, d ≠ c → t.channel d = s.channel d) ∧ (∀ k ∈ l, s.endsWith c k → t.tag k = s.releasedTag k) ∧
    (∀ k, k ∉ l ∨ ¬ s.endsWith c k → t.tag k = s.tag k) ∧ t.engine.lastServed = s.engine.lastServed ∧
    { t with engine := s.engine } = s := by
  induction l generalizing s n with
  | nil =>
    refine ⟨⟨n, Nat.le_refl n, by simp, .inl rfl, ?_⟩, fun _ _ => rfl, by simp, fun _ _ => rfl, rfl, rfl⟩
    show s.channel c = _
    rw [← hn]
  | cons k l ih =>
    simp only [List.foldl_cons]
    by_cases hk : s.endsWith c k
    · have e : endBackoffTag c s k = (s.setTag k (s.releasedTag k)).setChannel c { s.channel c with
          resumeSegment := some (min (s.tag k).segment n) } := by
        unfold endBackoffTag
        have hk' := hk
        unfold State.endsWith at hk'
        rw [if_pos hk', segmentFailed_of_failing c _ _ (by rw [releaseTag_channel]; exact hf)]
        simp [hn, releaseTag_eq]
      rw [e]
      generalize hu : (s.setTag k (s.releasedTag k)).setChannel c _ = u
      have uc : u.channel c = { s.channel c with resumeSegment := some (min (s.tag k).segment n) } := by rw [← hu]; simp
      have ud : ∀ d, d ≠ c → u.channel d = s.channel d := fun d hd => by
        rw [← hu, State.setChannel_channel_of_ne _ _ (Ne.symm hd)]; rfl
      have uk : u.tag k = s.releasedTag k := by rw [← hu]; simp
      have uj : ∀ j, j ≠ k → u.tag j = s.tag j := fun j hj => by
        rw [← hu, State.setChannel_tag_eq, State.setTag_tag_of_ne _ _ (Ne.symm hj)]
      have us : u.station = s.station := by rw [← hu]; rfl
      have ends : ∀ j, u.endsWith c j ↔ j ≠ k ∧ s.endsWith c j := fun j => by
        unfold State.endsWith
        by_cases hj : j = k
        · subst hj; rw [uk]; simp [State.releasedTag]
        · rw [uj j hj]; simp [hj]
      obtain ⟨⟨m, hm, low, which, own⟩, others, ended, kept, last, rest⟩ :=
        ih u (min (s.tag k).segment n) (by rw [uc]; exact hf) (by rw [uc])
      refine ⟨⟨m, by omega, ?_, ?_, by rw [own, uc]⟩, fun d hd => (others d hd).trans (ud d hd), ?_, ?_, ?_, ?_⟩
      · intro j hj he
        by_cases h : j = k
        · subst h; omega
        · rw [← uj j h]
          exact low j ((List.mem_cons.mp hj).resolve_left h) ((ends j).mpr ⟨h, he⟩)
      · rcases which with h | ⟨j, he, h⟩
        · rcases Nat.le_total (s.tag k).segment n with h' | h'
          · exact .inr ⟨k, hk, by omega⟩
          · exact .inl (by omega)
        · obtain ⟨h1, h2⟩ := (ends j).mp he
          exact .inr ⟨j, h2, by rw [← uj j h1]; exact h⟩
      · intro j hj he
        by_cases h : j = k
        · subst h; rw [kept j (.inr fun h => ((ends j).mp h).1 rfl), uk]
        · rw [ended j ((List.mem_cons.mp hj).resolve_left h) ((ends j).mpr ⟨h, he⟩)]
          simp only [State.releasedTag, uj j h, us]
      · intro j hj
        have h : j ≠ k := by
          rintro rfl
          rcases hj with h | h
          · exact h (List.mem_cons_self ..)
          · exact h hk
        rw [kept j (hj.imp (fun h' => fun h'' => h' (List.mem_cons_of_mem _ h'')) fun h' => fun h'' => h' ((ends j).mp h'').2),
          uj j h]
      · rw [last, ← hu]; rfl
      · have h := congrArg (fun v : State => { v with engine := s.engine }) rest
        exact h.trans (by rw [← hu]; rfl)
    · have e : endBackoffTag c s k = s := by
        have hk' := hk
        unfold State.endsWith at hk'
        unfold endBackoffTag
        rw [if_neg hk']
      rw [e]
      obtain ⟨⟨m, hm, low, which, own⟩, others, ended, kept, last, rest⟩ := ih s n hf hn
      refine ⟨⟨m, hm, fun j hj he => ?_, which, own⟩, others, fun j hj he => ?_, fun j hj => ?_, last, rest⟩
      · exact low j ((List.mem_cons.mp hj).resolve_left (by rintro rfl; exact hk he)) he
      · exact ended j ((List.mem_cons.mp hj).resolve_left (by rintro rfl; exact hk he)) he
      · exact kept j (hj.imp (fun h' h'' => h' (List.mem_cons_of_mem _ h'')) id)

/-- All that a halt-causing cause does to a RUNNING or WAITING channel (R40, R41, R71, R130). -/
theorem failChannel_channelFails (c : Fin 4) (error : HaltError) (detail : HaltDetail) (n : Nat) (s : State)
    (h : (s.channel c).state = .running ∨ (s.channel c).state = .waiting) :
    State.ChannelFails c error detail n s (failChannel c error detail n s) := by
  let u := (detachNotices c s).setChannel c { (s.channel c).left with
    state := .failing, haltError := some error, haltDetail := detail, resumeSegment := some n }
  have key : failChannel c error detail n s = (List.finRange 16).foldl (endBackoffTag c) u := by
    rcases h with h | h <;> simp only [failChannel, h, leaveRunning_eq] <;> rfl
  obtain ⟨⟨m, hm, low, which, own⟩, others, ended, kept, last, rest⟩ :=
    endBackoff_foldl c (List.finRange 16) u n (by simp [u]) (by simp [u])
  rw [← key] at own others ended kept last rest
  have ch : u.channel c = { (s.channel c).left with
    state := .failing, haltError := some error, haltDetail := detail, resumeSegment := some n } := by simp [u]
  refine ⟨⟨m, hm, fun k => low k (List.mem_finRange k), which, ?_⟩, fun d hd => ?_,
    fun k => ended k (List.mem_finRange k), fun k hk => kept k (.inr hk), ?_, last, ?_⟩
  · rw [own, ch]
  · rw [others d hd, State.setChannel_channel_of_ne _ _ (Ne.symm hd)]; rfl
  · exact (congrArg State.notices rest).trans rfl
  · have h := congrArg (fun v : State => { v with engine := s.engine, notices := s.notices }) rest
    exact h.trans rfl

/-- A segment fails for a cause that halts, in every state of its channel (R40, R41). -/
theorem failChannel_segmentFails (c : Fin 4) (error : HaltError) (detail : HaltDetail) (n : Nat) (s : State) :
    State.SegmentFails c error detail n s (failChannel c error detail n s) := by
  refine ⟨failChannel_channelFails c error detail n s, fun h => ?_, fun h1 h2 h3 => ?_⟩
  · rw [← segmentFailed_of_failing c n s h]; simp only [failChannel, h]
  · unfold failChannel
    split <;> simp_all

end Sys2Proof.Machine
end

