-- ==== Sys2Proof/Laws/QuietFrame.lean ====
section
/-! SUPPORT. What the operations of the notice unit, the responder, station control and the trunk interface can do to the
host's side, said once for each: the list store, the port, the configuration, the strap address, the ring's indices and
flags and the record in flight stay as they were. -/

namespace Sys2Proof.Machine

/-- What every operation away from the host port and the event writer leaves as it was. -/
structure QuietFrame (s t : State) : Prop where
  listStore : t.listStore = s.listStore
  port : t.port = s.port
  pending : t.pending = s.pending
  strap : t.station.strap = s.station.strap
  config : t.station.config = s.station.config
  producer : t.writer.producer = s.writer.producer
  consumer : t.writer.consumer = s.writer.consumer
  eventFault : t.writer.eventFault = s.writer.eventFault
  ringError : t.writer.ringError = s.writer.ringError
  inFlight : t.writer.inFlight = s.writer.inFlight
  lastServed : t.writer.lastServed = s.writer.lastServed

namespace QuietFrame

theorem refl (s : State) : QuietFrame s s := ⟨rfl, rfl, rfl, rfl, rfl, rfl, rfl, rfl, rfl, rfl, rfl⟩

theorem trans {s t u : State} (h : QuietFrame s t) (k : QuietFrame t u) : QuietFrame s u where
  listStore := k.listStore.trans h.listStore
  port := k.port.trans h.port
  pending := k.pending.trans h.pending
  strap := k.strap.trans h.strap
  config := k.config.trans h.config
  producer := k.producer.trans h.producer
  consumer := k.consumer.trans h.consumer
  eventFault := k.eventFault.trans h.eventFault
  ringError := k.ringError.trans h.ringError
  inFlight := k.inFlight.trans h.inFlight
  lastServed := k.lastServed.trans h.lastServed

theorem foldl {α : Type} {f : State → α → State} (hf : ∀ s a, QuietFrame s (f s a)) (l : List α) (s : State) :
    QuietFrame s (l.foldl f s) := by
  induction l generalizing s with
  | nil => exact refl s
  | cons a rest ih => exact (hf s a).trans (ih (f s a))

end QuietFrame

/-- An operation of the engine leaves the host's side as it was. -/
theorem EngineFrame.quiet {s t : State} (h : EngineFrame s t) : QuietFrame s t := by
  constructor <;> simp [h.listStore, h.port, h.pending, h.station, h.writer]

open QuietFrame

/-! ## Notices and bookings -/

theorem offerDroppable_quiet (e : Event) (s : State) : QuietFrame s (offerDroppable e s) := by
  unfold offerDroppable; split <;> exact ⟨rfl, rfl, rfl, rfl, rfl, rfl, rfl, rfl, rfl, rfl, rfl⟩

theorem raiseStation_quiet (e : StationEvent) (s : State) : QuietFrame s (raiseStation e s) :=
  ⟨rfl, rfl, rfl, rfl, rfl, rfl, rfl, rfl, rfl, rfl, rfl⟩

theorem setBooking_quiet (s : State) (b : Fin 16) (x : Booking) : QuietFrame s (s.setBooking b x) :=
  ⟨rfl, rfl, rfl, rfl, rfl, rfl, rfl, rfl, rfl, rfl, rfl⟩

theorem setWindow_quiet (s : State) (i : Fin 16) (x : Window) : QuietFrame s (s.setWindow i x) :=
  ⟨rfl, rfl, rfl, rfl, rfl, rfl, rfl, rfl, rfl, rfl, rfl⟩

theorem setPeer_quiet (s : State) (i : Fin 40) (x : Peer) : QuietFrame s (s.setPeer i x) :=
  ⟨rfl, rfl, rfl, rfl, rfl, rfl, rfl, rfl, rfl, rfl, rfl⟩

theorem setMemo_quiet (s : State) (i : Fin 40) (x : Option Memo) : QuietFrame s (s.setMemo i x) :=
  ⟨rfl, rfl, rfl, rfl, rfl, rfl, rfl, rfl, rfl, rfl, rfl⟩

theorem setNotices_quiet (s : State) (x : NoticeUnit) : QuietFrame s { s with notices := x } :=
  ⟨rfl, rfl, rfl, rfl, rfl, rfl, rfl, rfl, rfl, rfl, rfl⟩

theorem setTrunk_quiet (s : State) (x : Trunk) : QuietFrame s { s with trunk := x } :=
  ⟨rfl, rfl, rfl, rfl, rfl, rfl, rfl, rfl, rfl, rfl, rfl⟩

theorem setResponder_quiet (s : State) (x : Responder) : QuietFrame s { s with responder := x } :=
  ⟨rfl, rfl, rfl, rfl, rfl, rfl, rfl, rfl, rfl, rfl, rfl⟩

theorem setCounters_quiet (s : State) (x : Counters) : QuietFrame s { s with counters := x } :=
  ⟨rfl, rfl, rfl, rfl, rfl, rfl, rfl, rfl, rfl, rfl, rfl⟩

theorem setMemory_quiet (s : State) (x : MemoryUnit) : QuietFrame s { s with memory := x } :=
  ⟨rfl, rfl, rfl, rfl, rfl, rfl, rfl, rfl, rfl, rfl, rfl⟩

theorem placeNotice_quiet (n : QueuedNotice) (s : State) : QuietFrame s (placeNotice n s) := setNotices_quiet ..

theorem grantNoticePlace_quiet (s : State) : QuietFrame s (grantNoticePlace s) := by
  unfold grantNoticePlace
  split
  · split
    · exact (placeNotice_quiet ..).trans ((setChannel_frame ..).quiet.trans (setNotices_quiet ..))
    · exact refl s
  · exact refl s

theorem reportNotice_quiet (n : QueuedNotice) (complete : Bool) (s : State) :
    QuietFrame s (reportNotice n complete s) := by
  unfold reportNotice
  split
  · split
    · dsimp only
      split
      · exact (setChannel_frame ..).quiet.trans (finishEntry_frame ..).quiet
      · exact (setChannel_frame ..).quiet.trans (endUnmet_frame ..).quiet
    · exact refl s
  · split
    · exact refl s
    · exact offerDroppable_quiet ..
  · exact refl s

theorem releaseChannel_frame (c : Fin 4) (s : State) : EngineFrame s (releaseChannel c s) :=
  (setChannel_frame ..).trans (finishEntry_frame ..)

theorem releaseAction_quiet (b : Fin 16) (s : State) : QuietFrame s (releaseAction b s) := by
  unfold releaseAction
  split
  · exact setBooking_quiet ..
  · exact foldl (fun s c => (releaseChannel_frame c s).quiet) _ s

theorem startAction_quiet (b : Fin 16) (s : State) : QuietFrame s (startAction b s).1 := by
  unfold startAction
  dsimp only
  split
  · split
    · exact (setChannel_frame ..).quiet
    · exact offerDroppable_quiet ..
  · exact refl s

theorem bookingActs_quiet (n : NoticeArrival) (b : Fin 16) (s : State) : QuietFrame s (bookingActs n b s).1 := by
  unfold bookingActs
  dsimp only
  generalize hu : (s.setBooking b _) = u
  have h0 : QuietFrame s u := hu ▸ setBooking_quiet ..
  generalize hv : (if (u.booking b).post = true then _ else u) = v
  have h1 : QuietFrame u v := by
    rw [← hv]; split
    · exact offerDroppable_quiet ..
    · exact refl u
  generalize hx : (if (u.booking b).start = true then _ else (v, none)) = x
  have h2 : QuietFrame v x.1 := by
    rw [← hx]; split
    · exact startAction_quiet ..
    · exact refl v
  obtain ⟨x, started⟩ := x
  dsimp only at h2 ⊢
  generalize hy : (if (u.booking b).release = true then _ else x) = y
  have h3 : QuietFrame x y := by
    rw [← hy]; split
    · exact releaseAction_quiet ..
    · exact refl x
  have h4 := h0.trans (h1.trans (h2.trans h3))
  split
  · exact h4.trans (setBooking_quiet ..)
  · exact h4

theorem compareBookings_quiet (n : NoticeArrival) (l : List (Fin 16)) (s : State) :
    QuietFrame s (compareBookings n l s).1 := by
  induction l generalizing s with
  | nil => exact refl s
  | cons b rest ih =>
    simp only [compareBookings]
    split
    · exact (bookingActs_quiet ..).trans (ih _)
    · exact ih s

theorem noticeArrival_quiet (n : NoticeArrival) (s : State) : QuietFrame s (noticeArrival n s) := by
  unfold noticeArrival
  dsimp only
  split
  · exact (compareBookings_quiet ..).trans 
      (foldl (fun s (st : StartedChannel) => (beginEntry_frame st.entry st.channel s).quiet) _ _)
  · exact refl s

theorem waitExpired_frame (c : Fin 4) (s : State) : EngineFrame s (waitExpired c s) := by
  unfold waitExpired
  dsimp only
  split
  · exact endUnmet_frame ..
  · exact EngineFrame.refl s

/-! ## The responder -/

theorem testWindow_quiet (i : Fin 16) (s : State) : QuietFrame s (testWindow i s) := setWindow_quiet ..

theorem testWindows_quiet (s : State) : QuietFrame s (testWindows s) := foldl (fun s i => testWindow_quiet i s) _ s

theorem placeReply_quiet (r : Reply) (reserved : Bool) (s : State) : QuietFrame s (placeReply r reserved s) :=
  setTrunk_quiet ..

theorem immediateReply_quiet (r : Reply) (s : State) : QuietFrame s (immediateReply r s) := by
  unfold immediateReply; split
  · exact placeReply_quiet ..
  · exact setCounters_quiet ..

theorem executeHead_quiet (s : State) : QuietFrame s (executeHead s) := by
  unfold executeHead; split
  · exact setResponder_quiet ..
  · exact refl s

theorem queueItem_quiet (item : WorkItem) (s : State) : QuietFrame s (queueItem item s) :=
  (setResponder_quiet ..).trans (executeHead_quiet ..)

theorem emptyMemoOnArrival_quiet (r : Request) (s : State) : QuietFrame s (emptyMemoOnArrival r s) := by
  unfold emptyMemoOnArrival
  split
  · split
    · split
      · exact setMemo_quiet ..
      · exact refl s
    · exact refl s
  · exact refl s

theorem judgeRequest_quiet (r : Request) (s : State) : QuietFrame s (judgeRequest r s) := by
  unfold judgeRequest
  dsimp only
  split
  · exact immediateReply_quiet ..
  · split
    · exact immediateReply_quiet ..
    · split
      · exact immediateReply_quiet ..
      · split
        · exact immediateReply_quiet ..
        · split
          · split
            · exact immediateReply_quiet ..
            · exact refl s
          · split
            · exact refl s
            · split
              · exact immediateReply_quiet ..
              · exact queueItem_quiet ..

theorem requestArrival_quiet (r : Request) (s : State) : QuietFrame s (requestArrival r s) := by
  unfold requestArrival; split
  · exact (emptyMemoOnArrival_quiet ..).trans (judgeRequest_quiet ..)
  · exact refl s

theorem writeMemo_quiet (item : WorkItem) (r : ItemResult) (s : State) : QuietFrame s (writeMemo item r s) := by
  unfold writeMemo; split
  · exact setMemo_quiet ..
  · exact refl s

theorem leaveQueue_quiet (item : WorkItem) (s : State) : QuietFrame s (leaveQueue item s) :=
  (setResponder_quiet ..).trans ((testWindow_quiet ..).trans (executeHead_quiet ..))

theorem completeItem_quiet (item : WorkItem) (e : Execution) (r : ItemResult) (s : State) :
    QuietFrame s (completeItem item e r s) := by
  unfold completeItem; split
  · exact leaveQueue_quiet ..
  · exact (placeReply_quiet ..).trans ((writeMemo_quiet ..).trans (leaveQueue_quiet ..))

theorem clearMemos_quiet (s : State) : QuietFrame s (clearMemos s) := setResponder_quiet ..

theorem responderPeerLost_quiet (a : Nat) (s : State) : QuietFrame s (responderPeerLost a s) := by
  unfold responderPeerLost
  dsimp only
  split
  · exact (setResponder_quiet ..).trans (setMemo_quiet ..)
  · exact setResponder_quiet ..

theorem excludeResponder_quiet (s : State) : QuietFrame s (excludeResponder s) :=
  (setResponder_quiet ..).trans (clearMemos_quiet ..)

/-! ## Station control -/

theorem makePresence_quiet (leaving : Bool) (s : State) : QuietFrame s (makePresence leaving s) :=
  ⟨rfl, rfl, rfl, rfl, rfl, rfl, rfl, rfl, rfl, rfl, rfl⟩

theorem startPresenceTimer_quiet (s : State) : QuietFrame s (startPresenceTimer s) :=
  ⟨rfl, rfl, rfl, rfl, rfl, rfl, rfl, rfl, rfl, rfl, rfl⟩

theorem ordinaryPresence_quiet (s : State) : QuietFrame s (ordinaryPresence s) := by
  unfold ordinaryPresence; split
  · exact refl s
  · exact (makePresence_quiet ..).trans (startPresenceTimer_quiet ..)

theorem maskChanged_quiet (s : State) : QuietFrame s (maskChanged s) := by
  unfold maskChanged; split
  · exact ordinaryPresence_quiet ..
  · exact refl s

theorem clearRoster_quiet (s : State) : QuietFrame s (clearRoster s) :=
  ⟨rfl, rfl, rfl, rfl, rfl, rfl, rfl, rfl, rfl, rfl, rfl⟩

theorem peerLost_quiet (a : Nat) (s : State) : QuietFrame s (peerLost a s) :=
  (foldl (fun s t => (tagPeerLost_frame a s t).quiet) _ s).trans (responderPeerLost_quiet ..)

theorem presenceArrival_quiet (p : ReceivedPresence) (s : State) : QuietFrame s (presenceArrival p s) := by
  unfold presenceArrival
  dsimp only
  split
  · split
    · exact refl s
    · split
      · split
        · exact refl s
        · exact (setPeer_quiet ..).trans (offerDroppable_quiet ..)
      · split
        · exact (setPeer_quiet ..).trans ((peerLost_quiet ..).trans (offerDroppable_quiet ..))
        · split
          · exact (setPeer_quiet ..).trans ((peerLost_quiet ..).trans
              ((offerDroppable_quiet ..).trans (offerDroppable_quiet ..)))
          · exact setPeer_quiet ..
  · exact refl s

theorem restartSilence_quiet (a : Nat) (s : State) : QuietFrame s (restartSilence a s) := by
  unfold restartSilence
  split
  · split
    · exact setPeer_quiet ..
    · exact refl s
  · exact refl s

theorem silenceExpired_quiet (a : Nat) (s : State) : QuietFrame s (silenceExpired a s) := by
  unfold silenceExpired
  dsimp only
  split
  · split
    · exact (setPeer_quiet ..).trans ((peerLost_quiet ..).trans (offerDroppable_quiet ..))
    · exact refl s
  · exact refl s

theorem returnOffline_quiet (e : StationEvent) (s : State) : QuietFrame s (returnOffline e s) :=
  ⟨rfl, rfl, rfl, rfl, rfl, rfl, rfl, rfl, rfl, rfl, rfl⟩

theorem exclude_quiet (s : State) : QuietFrame s (exclude s) := by
  unfold exclude
  dsimp only
  refine QuietFrame.trans ?_ ((excludeResponder_quiet _).trans
    ((clearRoster_quiet _).trans ((testWindows_quiet _).trans (raiseStation_quiet .excluded _))))
  exact ⟨rfl, rfl, rfl, rfl, rfl, rfl, rfl, rfl, rfl, rfl, rfl⟩

theorem addressConflict_quiet (s : State) : QuietFrame s (addressConflict s) := by
  unfold addressConflict; split
  · exact refl s
  · exact refl s
  · exact returnOffline_quiet ..
  · exact exclude_quiet ..
  · exact exclude_quiet ..

theorem listeningExpired_quiet (s : State) : QuietFrame s (listeningExpired s) := by
  unfold listeningExpired; split
  · exact ⟨rfl, rfl, rfl, rfl, rfl, rfl, rfl, rfl, rfl, rfl, rfl⟩
  · exact refl s

theorem presenceExpired_quiet (s : State) : QuietFrame s (presenceExpired s) := by
  unfold presenceExpired; split
  · exact ordinaryPresence_quiet ..
  · exact refl s

theorem beginLeave_quiet (s : State) : QuietFrame s (beginLeave s) := by
  unfold beginLeave
  refine QuietFrame.trans ?_ (foldl (fun s c => (leaveChannel_frame c s).quiet) _ _)
  exact ⟨rfl, rfl, rfl, rfl, rfl, rfl, rfl, rfl, rfl, rfl, rfl⟩

theorem offerFarewell_quiet (s : State) : QuietFrame s (offerFarewell s) := by
  unfold offerFarewell; split
  · exact ⟨rfl, rfl, rfl, rfl, rfl, rfl, rfl, rfl, rfl, rfl, rfl⟩
  · exact refl s

theorem beginListening_quiet (s : State) : QuietFrame s (beginListening s) :=
  ⟨rfl, rfl, rfl, rfl, rfl, rfl, rfl, rfl, rfl, rfl, rfl⟩

/-! ## The trunk interface -/

theorem countTry_quiet (f : TryFrame) (s : State) : QuietFrame s (countTry f s) := by
  unfold countTry; split <;> exact ⟨rfl, rfl, rfl, rfl, rfl, rfl, rfl, rfl, rfl, rfl, rfl⟩

theorem beginTry_quiet (f : TryFrame) (bytes : List Byte) (s : State) : QuietFrame s (beginTry f bytes s) :=
  (countTry_quiet ..).trans (setTrunk_quiet ..)

theorem contend_quiet (rival : Option Byte) (s : State) : QuietFrame s (contend rival s) := by
  unfold contend; split
  · exact refl s
  · split
    · split
      · exact beginTry_quiet ..
      · exact refl s
    · split
      · exact refl s
      · exact setTrunk_quiet ..

theorem popNotice_quiet (complete : Bool) (s : State) : QuietFrame s (popNotice complete s) := by
  unfold popNotice; split
  · exact (setNotices_quiet ..).trans (reportNotice_quiet ..)
  · exact refl s

theorem endPresence_quiet (complete : Bool) (s : State) : QuietFrame s (endPresence complete s) := by
  unfold endPresence; split
  · dsimp only
    split
    · refine QuietFrame.trans ?_ (returnOffline_quiet ..)
      exact ⟨rfl, rfl, rfl, rfl, rfl, rfl, rfl, rfl, rfl, rfl, rfl⟩
    · exact ⟨rfl, rfl, rfl, rfl, rfl, rfl, rfl, rfl, rfl, rfl, rfl⟩
  · exact refl s

theorem endTransmission_quiet (f : TryFrame) (complete : Bool) (s : State) :
    QuietFrame s (endTransmission f complete s) := by
  unfold endTransmission
  dsimp only
  generalize hu : (if complete = true then s else countAbandoned s) = u
  have h : QuietFrame s u := by
    rw [← hu]; split
    · exact refl s
    · exact setCounters_quiet ..
  refine h.trans ?_
  split
  · split
    · exact (setTrunk_quiet ..).trans (setTag_frame ..).quiet
    · exact (setTrunk_quiet ..).trans ((setTag_frame ..).quiet.trans (attemptOutcome_frame ..).quiet)
  · exact setTrunk_quiet ..
  · exact popNotice_quiet ..
  · exact endPresence_quiet ..

theorem endTry_quiet (t : Try) (complete : Bool) (s : State) : QuietFrame s (endTry t complete s) := by
  unfold endTry; split
  · unfold endLiveTry; split
    · exact endTransmission_quiet ..
    · split
      · exact endTransmission_quiet ..
      · exact refl s
  · unfold endWithdrawnTry; split
    · exact setTrunk_quiet ..
    · exact refl s
  · unfold endReplacedTry; split
    · split
      · exact ⟨rfl, rfl, rfl, rfl, rfl, rfl, rfl, rfl, rfl, rfl, rfl⟩
      · exact refl s
    · exact refl s

theorem awaitHearing_quiet (t : Try) (complete : Bool) (s : State) : QuietFrame s (awaitHearing t complete s) := by
  unfold awaitHearing; split
  · split
    · exact setNotices_quiet ..
    · exact refl s
  · exact refl s

theorem tryEnds_quiet (echo : List Byte) (s : State) : QuietFrame s (tryEnds echo s) := by
  unfold tryEnds
  dsimp only
  split
  · exact refl s
  · split
    · exact (setTrunk_quiet ..).trans ((awaitHearing_quiet ..).trans ((endTry_quiet ..).trans (addressConflict_quiet ..)))
    · exact (setTrunk_quiet ..).trans ((awaitHearing_quiet ..).trans (endTry_quiet ..))

theorem hearOwnNotice_quiet (echo : List Byte) (s : State) : QuietFrame s (hearOwnNotice echo s) := by
  unfold hearOwnNotice; split
  · exact (setNotices_quiet ..).trans (noticeArrival_quiet ..)
  · split
    · exact refl s
    · split
      · exact refl s
      · split
        · exact (setTrunk_quiet ..).trans (noticeArrival_quiet ..)
        · exact refl s

theorem replyArrival_quiet (r : ReceivedReply) (s : State) : QuietFrame s (replyArrival r s) := by
  rcases replyArrival_frame r s with h | h
  · exact h.quiet
  · rw [h]; exact setCounters_quiet ..

theorem routeFrame_quiet (bytes : List Byte) (s : State) : QuietFrame s (routeFrame bytes s) := by
  unfold routeFrame
  dsimp only
  split
  · split
    · exact requestArrival_quiet ..
    · exact refl s
  · split
    · exact replyArrival_quiet ..
    · exact refl s
  · split
    · exact noticeArrival_quiet ..
    · exact refl s
  · exact presenceArrival_quiet ..
  · exact refl s

theorem receive_quiet (frame : Reception) (s : State) : QuietFrame s (receive frame s) := by
  unfold receive; split
  · exact refl s
  · split
    · exact setCounters_quiet ..
    · split
      · exact (restartSilence_quiet ..).trans (setCounters_quiet ..)
      · split
        · exact addressConflict_quiet ..
        · exact (restartSilence_quiet ..).trans (routeFrame_quiet ..)

/-! ## The memory access unit, but for the event writer's response -/

theorem markBegun_quiet (b : Burst) (s : State) : QuietFrame s (markBegun b s) := by
  unfold markBegun
  dsimp only
  split
  · exact refl s
  · split
    · exact setMemory_quiet ..
    · exact refl s
  · exact (setChannel_frame ..).quiet.trans (setMemory_quiet ..)
  · exact (setChannel_frame ..).quiet.trans (setMemory_quiet ..)

theorem grantBus_quiet (s : State) : QuietFrame s (grantBus s) := by
  unfold grantBus; split
  · exact refl s
  · split
    · exact refl s
    · split
      · exact refl s
      · exact (setMemory_quiet ..).trans (markBegun_quiet ..)

theorem responderResponse_quiet (error : Bool) (words : List Word) (s : State) :
    QuietFrame s (responderResponse error words s) := by
  unfold responderResponse
  dsimp only
  split
  · split
    · split
      · exact completeItem_quiet ..
      · split
        · exact setResponder_quiet ..
        · exact completeItem_quiet ..
    · split
      · exact completeItem_quiet ..
      · split
        · exact setResponder_quiet ..
        · exact completeItem_quiet ..
    · split
      · exact (setMemory_quiet ..).trans (completeItem_quiet ..)
      · split
        · exact (setResponder_quiet ..).trans (setMemory_quiet ..)
        · exact (setMemory_quiet ..).trans (completeItem_quiet ..)
    · split
      · exact (setMemory_quiet ..).trans (completeItem_quiet ..)
      · exact (setMemory_quiet ..).trans (completeItem_quiet ..)
  · exact refl s

end Sys2Proof.Machine
end

