-- ==== Sys2Proof/Laws/Ops.lean ====
section
/-! SUPPORT. What the shared operations of the blocks do, said once for each: offering a droppable event, the advertised
mask, the release of a tag, the test of a window, the end of a command, and a step. -/

namespace Sys2Proof.Machine

/-- A droppable event takes the youngest free slot, or is dropped and counted (R182). -/
theorem offerDroppable_cases (e : Event) (s : State) :
    (s.writer.slots.length < 4 ∧
      offerDroppable e s = { s with writer := { s.writer with slots := s.writer.slots ++ [e] } }) ∨
    (4 ≤ s.writer.slots.length ∧
      offerDroppable e s = { s with
        writer := { s.writer with dropCount := satInc s.writer.dropCount }
        counters := { s.counters with droppedEvents := satInc s.counters.droppedEvents } }) := by
  unfold offerDroppable
  split
  · next h => exact .inl ⟨h, rfl⟩
  · next h => exact .inr ⟨Nat.le_of_not_lt h, rfl⟩

/-- Offering an event never takes the slots above four. -/
theorem offerDroppable_slots {e : Event} {s : State} (h : s.writer.slots.length ≤ 4) :
    (offerDroppable e s).writer.slots.length ≤ 4 := by
  rcases offerDroppable_cases e s with ⟨hl, he⟩ | ⟨-, he⟩
  · simp only [he, List.length_append, List.length_singleton]; omega
  · simpa only [he] using h

/-- A saturating count stays within 65535. -/
theorem satInc_le (n : Nat) : satInc n ≤ 65535 := Nat.min_le_right ..

/-- A saturating count stays within 65535. -/
theorem satAdd_le (n k : Nat) : satAdd n k ≤ 65535 := Nat.min_le_right ..

/-- Bit w of the advertised mask is set exactly for the windows in OPEN or HELD (R105, R151). -/
theorem advertisedMask_getLsbD (s : State) (w : Fin 16) :
    s.advertisedMask.getLsbD w.val = (s.window w).advertised := by
  have key : ∀ (l : List (Fin 16)) (m : BitVec 16),
      (l.foldl (fun m w => if (s.window w).advertised then m ||| (1#16 <<< w.val) else m) m).getLsbD w.val =
        (m.getLsbD w.val || (decide (w ∈ l) && (s.window w).advertised)) := by
    intro l
    induction l with
    | nil => simp
    | cons a rest ih =>
      intro m
      rw [List.foldl_cons, ih]
      by_cases h : (s.window a).advertised
      · by_cases hw : w = a
        · subst hw; simp [h]
        · have hv : w.val ≠ a.val := fun e => hw (Fin.ext e)
          have h2 : (1#16 <<< a.val).getLsbD w.val = false := by
            simp
            intro _ _
            omega
          simp only [h, if_true, BitVec.getLsbD_or, h2]
          simp [hw]
      · by_cases hw : w = a
        · subst hw; simp [h]
        · simp [h, hw]
  rw [State.advertisedMask, key]
  simp

/-- What a released tag is (R68). -/
@[simp] theorem releaseTag_tag_self (t : Fin 16) (s : State) :
    (releaseTag t s).tag t = { s.tag t with
      state := if (s.tag t).unanswered then .cooling else .free
      owner := none
      completing := false
      timer := if (s.tag t).unanswered then .running (2 * s.deadline) else .stopped } :=
  State.setTag_tag_self ..

/-- A release leaves the other tags. -/
theorem releaseTag_tag_of_ne {t u : Fin 16} (h : t ≠ u) (s : State) : (releaseTag t s).tag u = s.tag u :=
  State.setTag_tag_of_ne _ _ h

/-- What the test of a window leaves in its record (R124). -/
@[simp] theorem testWindow_window_self (i : Fin 16) (s : State) :
    (testWindow i s).window i = (s.window i).complete i (s.inWork i) := State.setWindow_window_self ..

/-- The test of a window leaves the others. -/
theorem testWindow_window_of_ne {i j : Fin 16} (h : i ≠ j) (s : State) : (testWindow i s).window j = s.window j :=
  State.setWindow_window_of_ne _ _ h

/-- A command handed over while none executes ends at once (R176). -/
theorem issue_of_idle {s : State} (h : s.port.executing = none) (effect : Arguments → State → CommandEffect) :
    issue effect s = endCommand (effect s.port.arguments s) := by simp [issue, h]

/-- A command written while one executes gives BUSY and nothing else (R176). -/
theorem issue_of_executing {s : State} (h : s.port.executing ≠ none) (effect : Arguments → State → CommandEffect) :
    issue effect s = { s with port := { s.port with result := .busy } } := by
  have h' : s.port.executing.isSome = true := Option.isSome_iff_ne_none.mpr h
  simp [issue, h', refuseBusy]

/-- The end of a command sets the result and clears the executing flag, and leaves every other block (R176). -/
theorem endCommand_port (r : CommandEffect) :
    (endCommand r).port = { r.2.port with result := r.1, executing := none } := rfl

/-- An idle block stays as it is. -/
theorem step_of_empty {s : State} (h : s.pending = []) : step s = .next s := by simp [step, h]

/-- A step runs the command at the front on the state with the queue's rest. -/
theorem step_of_cons {s : State} {c : Instr} {rest : List Instr} (h : s.pending = c :: rest) :
    step s = exec c { s with pending := rest } := by simp [step, h]

end Sys2Proof.Machine
end

