-- ==== Sys2Proof/Laws/Entries.lean ====
section
/-! SUPPORT. What beginning and finishing an entry can do, said once: the statements cite these relations, and a proof cites
these lemmas instead of unfolding `runFrom`. -/

namespace Sys2Proof.Machine

/-- What entering an entry does is its course, whatever follows an entry that is finished at once. -/
theorem enterEntry_courseTaken (P : State → State → Prop) (next : State → State) (hP : ∀ u, P u (next u)) (c : Fin 4)
    (s : State) : State.CourseTaken (fun u => P u (match enterEntry c s with | (u, true) => next u | (u, false) => u)) c s
      (match enterEntry c s with | (u, true) => next u | (u, false) => u) := by
  refine ⟨fun hk => ?_, fun hk => ?_, fun hk => ?_, fun hm hs => ?_, fun hm hs hc => ?_, fun b hk hb => ⟨fun hl => ?_,
    fun hl ha => ?_, fun hl ha => ?_⟩⟩
  · simp [enterEntry, hk, enterReporting]
  · simp [enterEntry, hk, raiseHeld]
  · simp [enterEntry, hk]
  · cases hk : (s.channel c).captured.kind with
    | none => simp [enterEntry, hk]
    | some k =>
      cases k <;> simp_all [enterEntry, Entry.makesRequests, Entry.usesChain] <;>
        (rcases hs with hs | hs <;> simp [hs, Nat.not_le.mpr])
  · cases hk : (s.channel c).captured.kind with
    | none => simp_all [Entry.makesRequests, Entry.usesChain]
    | some k => cases k <;> simp_all [enterEntry, Entry.makesRequests, Entry.usesChain]
  · simp [enterEntry, hk, hb, beginWait, hl, hP]
  · simp [enterEntry, hk, hb, beginWait, hl, ha]
  · have hlt : (s.channel c).captured.booking < 16 := hb ▸ b.isLt
    have he : enterEntry c s = (endUnmet c .bookingIdle .bookingIdle ⟨none, none, some (BitVec.ofNat 32 b.val)⟩ s, false) := by
      simp [enterEntry, hk, hb, beginWait, hl, ha]
    rw [he]
    refine ⟨fun ht => ?_, fun ht => ?_⟩
    · simp [endUnmet, ht, raiseHeld, Channel.toleratedEvent, Channel.tolerate, leaveRunning_eq]
      rfl
    · rw [show (endUnmet c .bookingIdle .bookingIdle _ s) = failChannel c .bookingIdle _ 0 s from if_neg ht]
      exact failChannel_segmentFails ..

/-- What beginning an entry can do. -/
theorem runFrom_runsFrom (left : Nat) (c : Fin 4) (s : State) : State.RunsFrom left c s (runFrom left c s) := by
  induction left generalizing s with
  | zero => simp [State.RunsFrom, runFrom, badEntry, enterReporting, Channel.beginAt, Channel.haltedEvent, zeroWords]
  | succ left ih =>
    have own (x : Channel) : (s.setChannel c x).ownAddress = s.ownAddress := rfl
    refine ⟨fun k hk => ?_, fun hk => ?_⟩
    · simp only [runFrom, own, hk]
      simp [badEntry, enterReporting, Channel.beginAt, Channel.haltedEvent, zeroWords]
    · simp only [runFrom, own, hk]
      exact enterEntry_courseTaken (State.RunsFrom left c) (runFrom left c) (ih ·) c _

theorem beginEntry_entryBegun (index : Nat) (c : Fin 4) (s : State) :
    State.EntryBegun c index s (beginEntry index c s) := runFrom_runsFrom (1024 - index) c s

/-- What finishing an entry can do. -/
theorem finishEntry_entryFinished (c : Fin 4) (s : State) : State.EntryFinished c s (finishEntry c s) := by
  refine ⟨fun h => ?_, fun h => ?_⟩
  · simp only [finishEntry, h, if_true]; exact beginEntry_entryBegun ..
  · simp [finishEntry, h, raiseHeld, Channel.toleratedEvent]

/-- What the release of several channels can do. -/
theorem releaseChannels_channelsReleased (l : List (Fin 4)) (s : State) :
    State.ChannelsReleased l s (l.foldl (fun s c => releaseChannel c s) s) := by
  induction l generalizing s with
  | nil => rfl
  | cons c l ih => exact ⟨releaseChannel c s, finishEntry_entryFinished c _, ih _⟩

end Sys2Proof.Machine
end

