-- ==== Sys2Proof/Laws/Outcomes.lean ====
section
/-! SUPPORT. What the walk of a chain, an attempt's outcome, a return to OFFLINE, the loss of a peer and the abandonment of a
frame can do, said once: a proof about a try's end, a deadline, a reply, a loss, a grant, a preparation or a burst's response
cites these instead of unfolding the operations. -/

namespace Sys2Proof.Machine

/-! ## The walk of a chain -/

/-- What the walk does with a span of which some words are wanted (R90, R92). -/
theorem walkOn_walkGoesOn (chain : Word) (walk : Option Walk) (q : WalkRequest) (h : 0 < q.left) :
    WalkGoesOn chain walk q (walkOn chain walk q) := by
  refine ⟨fun hw => by simp [walkOn, hw], fun w hw => ?_⟩
  subst hw
  simp only [walkOn, Walk.beyond, Walk.regionEnd, wordsOn]
  by_cases hp : q.position < w.regionStart + w.regionLength
  · have h0 : min q.left (w.regionStart + w.regionLength - q.position) ≠ 0 := by omega
    have hl : q.left - min q.left (w.regionStart + w.regionLength - q.position) = 0 ↔
        min q.left (w.regionStart + w.regionLength - q.position) = q.left := by omega
    simp [hp, h0, hl]
  · have h0 : min q.left (w.regionStart + w.regionLength - q.position) = 0 := by omega
    have hl : ¬ 0 = q.left := by omega
    simp [hp, h0, hl]

/-- A preparation goes on by what the walk answers (R92, R93). -/
theorem walkPreparation_of (c : Fin 4) (segment : Nat) (q : WalkRequest) (s : State) {walk : Option Walk}
    {request : WalkRequest} {answer : WalkAnswer}
    (h : walkOn (s.channel c).captured.chainAddress (s.channel c).walk q = (walk, request, answer)) :
    walkPreparation c segment q s =
      let u := s.setChannel c { s.channel c with walk := walk, preparation := none }
      match answer with
      | .placed => segmentPlaced c segment request.pieces u
      | .short p => chainShort c segment p u
      | .fetch d => u.setChannel c { u.channel c with
          preparation := some ⟨segment, .fetching request (fetchAccess d), false⟩ } := by
  simp only [walkPreparation, h]
  cases answer <;> rfl

/-! ## An attempt's outcome -/

@[simp] theorem withdrawTry_tag (f : TryFrame → Bool) (s : State) (k : Fin 16) : (withdrawTry f s).tag k = s.tag k := by
  unfold withdrawTry
  split
  · split <;> rfl
  · rfl

@[simp] theorem withdrawTry_channel (f : TryFrame → Bool) (s : State) (c : Fin 4) :
    (withdrawTry f s).channel c = s.channel c := by
  unfold withdrawTry
  split
  · split <;> rfl
  · rfl

/-- An outcome of a RUNNING channel's tag is handed to the channel's disposition (R63, R75). -/
theorem attemptOutcome_of_running (k : Fin 16) (c : Fin 4) (r : Result) (s : State) (ho : (s.tag k).owner = some c)
    (hc : (s.channel c).state = .running) :
    attemptOutcome k r s = runningOutcome c k r
      ((withdrawTry (TryFrame.isRequestOf k) s).setTag k { s.tag k with lastOutcome := some r, timer := .stopped }) := by
  simp [attemptOutcome, ho, hc]

/-- An outcome that halts (R77, R82). -/
theorem runningOutcome_of_halt (c : Fin 4) (k : Fin 16) (r : Result) (s : State) (error : HaltError) (detail : HaltDetail)
    (hs : (s.tag k).sweep = false) (hv : verdict (s.channel c).captured (s.tag k) r = .halt error detail) :
    runningOutcome c k r s = failChannel c error detail (s.tag k).segment (releaseTag k s) := by
  unfold runningOutcome; simp [hs, hv]

/-- An outcome that is tolerated (R79). -/
theorem runningOutcome_of_tolerate (c : Fin 4) (k : Fin 16) (r : Result) (s : State) (hs : (s.tag k).sweep = false)
    (hv : verdict (s.channel c).captured (s.tag k) r = .tolerate) :
    runningOutcome c k r s = finishIfResolved c ((releaseTag k s).setChannel c { s.channel c with
      completed := (s.channel c).completed + 1, tolerated := (s.channel c).tolerated + 1, lastTolerated := some r }) := by
  unfold runningOutcome; simp [hs, hv, tolerateSegment, resolveSegment, Channel.tolerate]

/-- An outcome that is retried (R81). -/
theorem runningOutcome_of_retry (c : Fin 4) (k : Fin 16) (r : Result) (s : State) (hs : (s.tag k).sweep = false)
    (hv : verdict (s.channel c).captured (s.tag k) r = .retry) :
    runningOutcome c k r s = s.setTag k { s.tag k with state := .backoff, timer := .running s.retryInterval } := by
  unfold runningOutcome; simp [hs, hv]

/-- PERSIST below its limit retries what it persists in (R81). -/
theorem verdict_persist_retry (e : Entry) (g : Tag) (r : Result) (h : e.disposition = some .persist)
    (hs : r.isSuccess = false) (hp : r.persists (decide (g.operation = .claim)) = true) (hl : g.attempts < e.limit) :
    verdict e g r = .retry := by
  unfold verdict
  rw [h]
  simp only [hs, hp, if_pos hl, Bool.not_true, Bool.false_eq_true, if_false]

/-- PERSIST at its limit halts (R82). -/
theorem verdict_persist_exhausted (e : Entry) (g : Tag) (r : Result) (h : e.disposition = some .persist)
    (hs : r.isSuccess = false) (hp : r.persists (decide (g.operation = .claim)) = true) (hl : e.limit ≤ g.attempts) :
    verdict e g r = exhaustedVerdict (decide (g.operation = .claim)) g.target r := by
  unfold verdict
  rw [h]
  simp only [hs, hp, if_neg (Nat.not_lt.mpr hl), Bool.not_true, Bool.false_eq_true, if_false]

/-- When a RUNNING channel's entry is finished by its last segment, and when it is not (R31). -/
theorem finishIfResolved_of_running (c : Fin 4) (s : State) (hr : (s.channel c).state = .running)
    (hs : (s.channel c).captured.isSweep = false) :
    ((s.channel c).completed < (s.channel c).captured.segments → finishIfResolved c s = s) ∧
    ((s.channel c).captured.segments ≤ (s.channel c).completed → finishIfResolved c s = finishEntry c s) := by
  unfold finishIfResolved
  exact ⟨fun h => by simp [Nat.not_le.mpr h], fun h => by simp [hr, hs, h]⟩

/-- An update of a channel and one of a tag touch different tables. -/
theorem setChannel_setTag (c : Fin 4) (ch : Channel) (k : Fin 16) (g : Tag) (s : State) :
    (s.setChannel c ch).setTag k g = (s.setTag k g).setChannel c ch := rfl

theorem setChannel_releasedTag (c : Fin 4) (ch : Channel) (k : Fin 16) (s : State) :
    (s.setChannel c ch).releasedTag k = s.releasedTag k := rfl

/-- The asking of a completion write, in one update of the tag and one of the channel (R67, R100). -/
theorem askWrite_eq (c : Fin 4) (k : Fin 16) (record : Option SweepRecord) (stage : WriteStage) (s : State) :
    askWrite c k record stage s = (s.setTag k { s.tag k with completing := true, timer := .stopped }).setChannel c
      { s.channel c with
        writes := (s.channel c).writes ++ [⟨some k, (s.tag k).segment, record, stage, false⟩] } := by
  simp [askWrite]

/-- What asking for a sweep record can do (R86, R87, R95). -/
theorem beginRecord_recordAsked (c : Fin 4) (k : Fin 16) (r : Result) (s : State) :
    State.RecordAsked c k r s (beginRecord c k r s) := by
  simp only [State.RecordAsked, beginRecord]
  generalize hw : (if r = Result.accepted then (s.tag k).payload.take (s.tag k).count else []) = words
  refine ⟨fun h => ?_, fun h => ?_⟩
  · subst h; simp [askWrite_eq, setChannel_setTag, SweepRecord.accesses, SweepRecord.header, WriteAccess.start, writesOf]
  · have g := walkOn_walkGoesOn (s.channel c).captured.chainAddress (s.channel c).walk
      ⟨(s.channel c).sweepPosition + 1, words.length, []⟩ (List.length_pos_of_ne_nil h)
    generalize ha : walkOn (s.channel c).captured.chainAddress (s.channel c).walk
      ⟨(s.channel c).sweepPosition + 1, words.length, []⟩ = answer at g
    obtain ⟨walk, request, answer⟩ := answer
    refine ⟨walk, request, answer, g, fun e => ?_, fun d e => ?_, fun p e => ?_⟩ <;> subst e
    · simp [h, askWrite_eq, setChannel_setTag, SweepRecord.accesses, SweepRecord.header, WriteAccess.start]
    · simp [h, askWrite_eq, setChannel_setTag, fetchAccess, ReadAccess.start, descriptorAccess]
    · simp only [State.setChannel_channel_self, h, if_false]
      have e : moveCursor c (s.tag k).target (releaseTag k ((s.setChannel c { s.channel c with sweepHeader := none }).setChannel c
          { s.channel c with sweepHeader := none, walk := walk })) = (s.setTag k (s.releasedTag k)).setChannel c
          { s.channel c with sweepHeader := none, walk := walk, sweepCursor := (s.tag k).target } := by
        simp [moveCursor, releaseTag_eq, setChannel_setTag, setChannel_releasedTag]
      exact e ▸ failChannel_segmentFails ..

/-- The withdrawal of a tag's try, as the statements write it (R170). -/
theorem withdrawTry_request (k : Fin 16) (s : State) : withdrawTry (TryFrame.isRequestOf k) s =
    { s with trunk := { s.trunk with
      line := s.trunk.line.map fun x => if x.frame = .request k ∧ x.fate = .live then { x with fate := .withdrawn } else x } } := by
  obtain ⟨_, _, _, _, _, _, ⟨_, _, _, line⟩, _, _, _, _⟩ := s
  rcases line with _ | ⟨frame, bytes, fate, heard⟩
  · rfl
  · cases frame <;> simp [withdrawTry, TryFrame.isRequestOf]
    rename_i j
    by_cases h : j = k <;> cases fate <;> simp [h]

/-- The halt of an outcome, as the statements write it (R42, R77, R81). -/
theorem haltVerdict_eq (claim : Bool) (peer : Nat) (r : Result) (h : ¬ r.succeeds) :
    haltVerdict claim peer r = .halt (r.halt claim).1 ⟨some peer, (r.halt claim).2.1, (r.halt claim).2.2⟩ := by
  cases r with
  | notReady reason => cases reason <;> rfl
  | accepted => exact absurd (.inl rfl) h
  | won v => exact absurd (.inr ⟨v, rfl⟩) h
  | _ => cases claim <;> rfl

theorem isSuccess_iff (r : Result) : r.isSuccess = true ↔ r.succeeds := by
  cases r <;> simp [Result.isSuccess, Result.succeeds]

theorem persists_iff (claim : Bool) (r : Result) : r.persists claim = true ↔ r.retried claim := by
  unfold Result.retried
  cases r with
  | notReady reason => exact ⟨fun _ => .inl ⟨reason, rfl⟩, fun _ => rfl⟩
  | lost v => exact ⟨fun _ => .inr (.inr (.inr (.inr (.inl ⟨v, rfl⟩)))), fun _ => rfl⟩
  | timeout => exact ⟨fun _ => .inr (.inl rfl), fun _ => rfl⟩
  | link => exact ⟨fun _ => .inr (.inr (.inl rfl)), fun _ => rfl⟩
  | absent => exact ⟨fun _ => .inr (.inr (.inr (.inl rfl))), fun _ => rfl⟩
  | peerLost =>
    refine ⟨fun h => .inr (.inr (.inr (.inr (.inr ⟨rfl, by cases claim <;> trivial⟩)))), ?_⟩
    rintro (⟨_, h⟩ | h | h | h | ⟨_, h⟩ | ⟨_, rfl⟩) <;> first | rfl | exact nomatch h
  | _ =>
    refine ⟨fun h => (nomatch h), ?_⟩
    rintro (⟨_, h⟩ | h | h | h | ⟨_, h⟩ | ⟨h, _⟩) <;> exact nomatch h

/-- A channel goes on after a segment is resolved: its entry is finished with the last one, if it runs (R31, R41). -/
theorem finishIfResolved_cases (c : Fin 4) (s : State) :
    ((s.channel c).state = .running → (s.channel c).captured.isSweep = false →
      (s.channel c).captured.segments ≤ (s.channel c).completed → State.EntryFinished c s (finishIfResolved c s)) ∧
    ((s.channel c).state = .failing ∨ (s.channel c).captured.isSweep = true ∨
      (s.channel c).completed < (s.channel c).captured.segments → finishIfResolved c s = s) := by
  refine ⟨fun h1 h2 h3 => ?_, fun h => ?_⟩
  · rw [(finishIfResolved_of_running c s h1 h2).2 h3]; exact finishEntry_entryFinished ..
  · unfold finishIfResolved
    rcases h with h | h | h
    · simp [h]
    · simp [h]
    · simp [Nat.not_le.mpr h]

/-- What an attempt's outcome can do, whoever owns its tag (R39, R41, R63, R75, R86). -/
theorem attemptOutcome_outcomeTaken (k : Fin 16) (r : Result) (s : State) :
    State.OutcomeTaken k r s (attemptOutcome k r s) := by
  simp only [State.OutcomeTaken]
  generalize he : ({ s.setTag k { s.tag k with lastOutcome := some r, timer := .stopped } with trunk := _ } : State) = ended
  have tk : ended.tag k = { s.tag k with lastOutcome := some r, timer := .stopped } := by
    rw [← he]; exact State.setTag_tag_self ..
  have cc : ∀ c, ended.channel c = s.channel c := fun c => by rw [← he]; rfl
  have retry : ended.retryInterval = s.station.config.retryInterval.toNat := by rw [← he]; rfl
  have key : attemptOutcome k r s = match (s.tag k).owner with
      | none => ended
      | some c => match (s.channel c).state with
        | .running => runningOutcome c k r ended
        | .failing => failingOutcome c k r ended
        | _ => releaseTag k ended := by
    have e : (withdrawTry (TryFrame.isRequestOf k) s).setTag k { (withdrawTry (TryFrame.isRequestOf k) s).tag k with
        lastOutcome := some r, timer := .stopped } = ended := by
      rw [withdrawTry_request, ← he]; rfl
    unfold attemptOutcome
    dsimp only
    rw [e, tk]
    simp only [cc] <;> rfl
  clear he
  have sw : (ended.tag k).sweep = (s.tag k).sweep := by rw [tk]
  have op : (ended.tag k).operation = (s.tag k).operation := by rw [tk]
  refine ⟨fun ho => by rw [key, ho], fun c ho => ?_⟩
  have own : attemptOutcome k r s = match (s.channel c).state with
      | .running => runningOutcome c k r ended
      | .failing => failingOutcome c k r ended
      | _ => releaseTag k ended := by rw [key, ho]
  rw [own]
  have resolved : resolveSegment c (releaseTag k ended) =
      (ended.setTag k (ended.releasedTag k)).setChannel c { s.channel c with completed := (s.channel c).completed + 1 } := by
    simp [resolveSegment, releaseTag_eq, cc]
  have tolerated : tolerateSegment c r (releaseTag k ended) = (ended.setTag k (ended.releasedTag k)).setChannel c
      { s.channel c with
        completed := (s.channel c).completed + 1, tolerated := (s.channel c).tolerated + 1, lastTolerated := some r } := by
    simp [tolerateSegment, resolveSegment, Channel.tolerate, releaseTag_eq, cc]
  have complete (hr : r.succeeds) : verdict (s.channel c).captured (ended.tag k) r = .complete := by
    simp [verdict, (isSuccess_iff r).mpr hr]
  have fails (hr : ¬ r.succeeds) : r.isSuccess = false := by
    rw [← Bool.not_eq_true]; exact fun h => hr ((isSuccess_iff r).mp h)
  have data : beginData c k ended = (ended.setTag k { s.tag k with
      lastOutcome := some r, completing := true, timer := .stopped }).setChannel c { s.channel c with
        writes := (s.channel c).writes ++ [{
          tag := some k, segment := (s.tag k).segment, record := none
          stage := .writing (writesOf ((s.tag k).destination.getD []) ((s.tag k).payload.take (s.tag k).count))
          begun := false }] } := by
    simp [beginData, askWrite_eq, tk, cc]
  have halts (error : HaltError) (detail : HaltDetail) (hc : (s.channel c).state = .running) (hs : (s.tag k).sweep = false)
      (hv : verdict (s.channel c).captured (ended.tag k) r = .halt error detail) :
      State.ChannelFails c error detail (s.tag k).segment (ended.setTag k (ended.releasedTag k))
        (runningOutcome c k r ended) := by
    have h := failChannel_channelFails c error detail (s.tag k).segment (releaseTag k ended)
      (.inl (by rw [releaseTag_channel, cc]; exact hc))
    rw [runningOutcome_of_halt c k r ended error detail (sw ▸ hs) (by rw [cc]; exact hv)]
    rwa [tk]
  have goesOn (u : State) (ch' : Channel) (e : u = (ended.setTag k (ended.releasedTag k)).setChannel c ch') :
      u.channel c = ch' := by rw [e]; simp
  have sweeps (hc : (s.channel c).state = .running ∨ (s.channel c).state = .failing) (hs : (s.tag k).sweep = true) :
      (match (s.channel c).state with
        | .running => runningOutcome c k r ended
        | .failing => failingOutcome c k r ended
        | _ => releaseTag k ended) = sweepOutcome c k r ended := by
    rcases hc with hc | hc <;> simp only [hc] <;> simp [runningOutcome, failingOutcome, sw, hs]
  generalize hd : (s.channel c).captured.disposition = disp
  refine ⟨fun h1 h2 => ?_, fun hc hs => ⟨fun hr ho => ?_, fun hr ho => ⟨fun h1 h2 h3 => ?_, fun h1 => ?_⟩,
    fun hr ht => ⟨fun h1 h2 h3 => ?_, fun h1 => ?_⟩⟩, fun hc hs hr => ⟨fun ht => ?_, fun ht => ⟨fun hp => ?_, fun hp hl => ?_,
    fun hp hl => ⟨fun h1 => ?_, fun h1 => ?_⟩⟩⟩, fun hc hs hr ht => ?_, fun hc hs => ⟨fun ho => ?_, fun ho hr => ?_, fun ho hr => ?_⟩⟩
  · cases h : (s.channel c).state <;> first | rfl | exact absurd h h1 | exact absurd h h2
  · rw [← data]
    rcases hc with hc | hc <;> simp only [hc]
    · simp [runningOutcome, sw, hs, cc, complete hr, op, ho]
    · simp [failingOutcome, sw, hs, (isSuccess_iff r).mpr hr, op, ho]
  · rw [← resolved]
    simp only [h1]
    have e : runningOutcome c k r ended = finishIfResolved c (resolveSegment c (releaseTag k ended)) := by
      simp [runningOutcome, sw, hs, cc, complete hr, op, ho]
    rw [e]
    exact (finishIfResolved_cases c _).1 (by rw [goesOn _ _ resolved]; exact h1) (by rw [goesOn _ _ resolved]; exact h2)
      (by rw [goesOn _ _ resolved]; exact h3)
  · rw [← resolved]
    rcases hc with hc | hc <;> simp only [hc]
    · have e : runningOutcome c k r ended = finishIfResolved c (resolveSegment c (releaseTag k ended)) := by
        simp [runningOutcome, sw, hs, cc, complete hr, op, ho]
      rw [e]
      exact (finishIfResolved_cases c _).2 (by rw [goesOn _ _ resolved]; exact h1)
    · simp [failingOutcome, sw, hs, (isSuccess_iff r).mpr hr, op, ho]
  · rw [← tolerated]
    simp only [h1]
    have e : runningOutcome c k r ended = finishIfResolved c (tolerateSegment c r (releaseTag k ended)) := by
      simp [runningOutcome, sw, hs, cc, verdict, fails hr, hd, ht]
    rw [e]
    exact (finishIfResolved_cases c _).1 (by rw [goesOn _ _ tolerated]; exact h1) (by rw [goesOn _ _ tolerated]; exact h2)
      (by rw [goesOn _ _ tolerated]; exact h3)
  · rw [← tolerated]
    rcases hc with hc | hc <;> simp only [hc]
    · have e : runningOutcome c k r ended = finishIfResolved c (tolerateSegment c r (releaseTag k ended)) := by
        simp [runningOutcome, sw, hs, cc, verdict, fails hr, hd, ht]
      rw [e]
      exact (finishIfResolved_cases c _).2 (by rw [goesOn _ _ tolerated]; exact h1)
    · simp [failingOutcome, sw, hs, fails hr, cc, hd, ht]
  · simp only [hc]
    exact halts _ _ hc hs (by simp [verdict, fails hr, hd, ht, tk, haltVerdict_eq _ _ _ hr])
  · simp only [hc]
    have hp' : r.persists (decide ((s.tag k).operation = .claim)) = false := by
      rw [← Bool.not_eq_true]; exact fun h => hp ((persists_iff _ r).mp h)
    exact halts _ _ hc hs (by simp [verdict, fails hr, hd, ht, tk, hp', haltVerdict_eq _ _ _ hr])
  · simp only [hc]
    rw [runningOutcome_of_retry c k r ended (sw ▸ hs) (verdict_persist_retry _ _ _ (by rw [cc, hd]; exact ht) (fails hr)
      (by rw [op]; exact (persists_iff _ r).mpr hp) (by rw [tk, cc]; exact hl))]
    rw [tk, retry]
  · simp only [hc]
    have v := verdict_persist_exhausted (s.channel c).captured (ended.tag k) r (by rw [hd]; exact ht) (fails hr)
      (by rw [op]; exact (persists_iff _ r).mpr hp) (by rw [tk]; exact hl)
    obtain ⟨h1, h2⟩ := h1
    rw [decide_eq_true_eq] at h1
    refine halts _ _ hc hs (v.trans ?_)
    rcases h2 with rfl | rfl <;> simp [exhaustedVerdict, tk, h1, Result.halt, Result.code]
  · simp only [hc]
    have v := verdict_persist_exhausted (s.channel c).captured (ended.tag k) r (by rw [hd]; exact ht) (fails hr)
      (by rw [op]; exact (persists_iff _ r).mpr hp) (by rw [tk]; exact hl)
    refine halts _ _ hc hs (v.trans ?_)
    have h2 : ¬ ((s.tag k).operation = .claim ∧ (r = .timeout ∨ r = .link)) := fun h => h1 ⟨by simpa using h.1, h.2⟩
    simp [exhaustedVerdict, tk, h2]
  · have e : (match (s.channel c).state with
        | .running => runningOutcome c k r ended
        | .failing => failingOutcome c k r ended
        | _ => releaseTag k ended) = segmentFailed c (s.tag k).segment (releaseTag k ended) := by
      simp only [hc]
      simp [failingOutcome, hs, fails hr, cc, hd, ht, tk]
    rw [e, segmentFailed_of_failing _ _ _ (by rw [releaseTag_channel, cc]; exact hc), releaseTag_channel, cc]
    rfl
  · rw [sweeps hc hs]
    simp only [sweepOutcome, op, ho, if_true]
    exact beginRecord_recordAsked c k r ended
  · rw [sweeps hc hs]
    simp [sweepOutcome, ho, (isSuccess_iff r).mpr hr, moveCursor, resolveSegment, releaseTag_eq, cc, tk]
  · rw [sweeps hc hs]
    simp [sweepOutcome, ho, fails hr, moveCursor, tolerateSegment, Channel.tolerate, resolveSegment, releaseTag_eq,
      cc, tk]

/-- A completion write that fails leaves its channel, in one update of its tag and one of the channel (R67, R87, R89). -/
theorem abandonWrite_eq (c : Fin 4) (w : CompletionWrite) (s : State) :
    abandonWrite c w s = (match w.tag with
      | some k => s.setTag k (s.releasedTag k)
      | none => s).setChannel c { s.channel c with
        writes := (s.channel c).writes.tail
        sweepCursor := match w.record with
          | some r => r.station
          | none => (s.channel c).sweepCursor } := by
  simp only [abandonWrite, popWrite, releaseOwned, moveCursor]
  cases w.tag <;> cases w.record <;> simp [releaseTag_eq, setChannel_setTag, setChannel_releasedTag]

/-! ## The request rotation -/

/-- A search from the pointer upward finds the first tag that has a property (R166). -/
theorem find_rotation16 (p : Fin 16 → Bool) (pointer k : Fin 16) (hk : p k = true)
    (hb : ∀ j : Fin 16, (j - pointer).val < (k - pointer).val → p j = false) : (rotation16 pointer).find? p = some k := by
  rw [List.find?_eq_some_iff_getElem]
  refine ⟨hk, (k - pointer).val, by simp [rotation16], by simp [rotation16], fun j hj => ?_⟩
  simp only [rotation16, List.getElem_map, List.getElem_finRange, Bool.not_eq_true']
  apply hb
  simpa using hj

/-- What the rotation chooses: a tag whose try failed and before which none in the count has one, or, where no try has
failed, the first on offer (R166). -/
theorem rotatedTag_of (s : State) (k : Fin 16) (hk : (s.tag k).onOffer = true) :
    (0 < (s.tag k).tries →
      (∀ j, (j - s.trunk.pointer).val < (k - s.trunk.pointer).val → (s.tag j).onOffer = true → (s.tag j).tries = 0) →
      s.rotatedTag = some k) ∧
    ((∀ j, (s.tag j).onOffer = true → (s.tag j).tries = 0) →
      (∀ j, (j - s.trunk.pointer).val < (k - s.trunk.pointer).val → (s.tag j).onOffer = false) →
      s.rotatedTag = some k) := by
  have turn (j : Fin 16) (h : (s.tag j).onOffer = true → (s.tag j).tries = 0) : (s.tag j).keepsTurn = false := by
    cases ho : (s.tag j).onOffer <;> simp [Tag.keepsTurn, ho, h]
  refine ⟨fun ht hb => ?_, fun hz hb => ?_⟩
  · have first := find_rotation16 (fun t => (s.tag t).keepsTurn) s.trunk.pointer k (by simp [Tag.keepsTurn, hk, ht])
      fun j hj => turn j (hb j hj)
    simp [State.rotatedTag, first]
  · have none : (rotation16 s.trunk.pointer).find? (fun t => (s.tag t).keepsTurn) = none := by
      simp [List.find?_eq_none, fun j => turn j (hz j)]
    simp only [State.rotatedTag, none, Option.none_or]
    exact find_rotation16 _ _ _ hk hb

/-! ## A return to OFFLINE -/

/-- What a return to OFFLINE does (R74, R127, R146, R152, R159, R161, R171, R174). -/
theorem returnOffline_returnedOffline (what : StationEvent) (s : State) :
    State.ReturnedOffline what s (returnOffline what s) := by
  simp only [State.ReturnedOffline, State.SameWork, returnOffline, raiseStation, clearMemos, clearRoster]
  refine ⟨trivial, trivial, trivial, trivial, trivial, trivial, trivial, trivial, trivial, fun a => ?_, fun a => ?_, trivial,
    fun k => ?_, fun k hk => ?_, ?_⟩
  · simp [State.peer]
  · simp [State.memo]
  · simp only [State.tag, mapAll, Tag.endCooling]
    by_cases h : s.engine.tags[k.val].state = .cooling <;> simp [h]
  · simp only [State.tag] at hk
    simp [State.tag, mapAll, Tag.endCooling]
    exact fun h => absurd h hk
  · simp

/-! ## A lost peer -/

/-- What a lost peer does to some tags (R70). -/
theorem tagPeerLost_foldl_tagsLost (address : Nat) (l : List (Fin 16)) (s : State) :
    State.TagsLost address l s (l.foldl (tagPeerLost address) s) := by
  induction l generalizing s with
  | nil => rfl
  | cons k l ih =>
    have reached : ((s.tag k).owned && !(s.tag k).completing && (s.tag k).target = address) = true ↔
        ((s.tag k).state = .queued ∨ (s.tag k).state = .sent ∨ (s.tag k).state = .backoff) ∧
          (s.tag k).completing = false ∧ (s.tag k).target = address := by
      simp [Tag.owned, or_assoc, and_assoc]
    simp only [State.TagsLost, List.foldl_cons]
    refine ⟨fun h => ⟨tagPeerLost address s k, ?_, ih _⟩, fun h => ?_⟩
    · simp only [tagPeerLost, if_pos (reached.mpr h)]; exact attemptOutcome_outcomeTaken ..
    · simpa only [tagPeerLost, if_neg (mt reached.mp h)] using ih s

/-- What the loss of a peer hands on (R155). -/
theorem peerLost_peerLost (i : Fin 40) (s : State) : s.PeerLost i (peerLost (i.val + 1) s) := by
  have lost := tagPeerLost_foldl_tagsLost (i.val + 1) (List.finRange 16) s
  unfold peerLost
  generalize (List.finRange 16).foldl (tagPeerLost (i.val + 1)) s = u at lost
  have hi : stationIndex (i.val + 1) = some i := by simp [stationIndex]
  refine ⟨u, lost, ?_⟩
  simp only [responderPeerLost, hi]
  refine ⟨fun j => ?_, rfl, rfl, rfl, rfl⟩
  by_cases h : j = i
  · subst h; rw [if_pos rfl, State.setMemo_memo_self]
  · rw [if_neg h, State.setMemo_memo_of_ne _ _ (Ne.symm h)]; rfl

/-! ## The end of a frame -/

/-- What a notice that ends unmet does to its RUNNING channel (R20, R130). -/
theorem endUnmet_link (c : Fin 4) (s : State) (h : (s.channel c).state = .running) :
    ((s.channel c).captured.disposition = some .tolerant →
      endUnmet c .link .link HaltDetail.none s = s.setChannel c { (s.channel c).left with
        tolerated := (s.channel c).tolerated + 1, lastTolerated := some .link
        heldSlot := some (.chTolerated c (s.channel c).entryIndex ((s.channel c).tolerated + 1) (some .link)) }) ∧
    ((s.channel c).captured.disposition ≠ some .tolerant →
      State.ChannelFails c .link HaltDetail.none 0 s (endUnmet c .link .link HaltDetail.none s)) := by
  refine ⟨fun ht => ?_, fun ht => ?_⟩
  · simp [endUnmet, ht, raiseHeld, Channel.toleratedEvent, Channel.tolerate, leaveRunning_eq, Channel.left, h]
  · rw [show endUnmet c .link .link HaltDetail.none s = failChannel c .link HaltDetail.none 0 s from if_neg ht]
    exact failChannel_channelFails c _ _ _ s (.inl h)

/-- What a channel is told of the abandonment of its notice (R20, R130). -/
theorem reportNotice_abandoned (n : QueuedNotice) (c : Fin 4) (s : State) (h : n.origin = .channel c) :
    let ch := s.channel c
    (ch.state = .running → ch.noticeWait = .echo →
      (ch.captured.disposition = some .tolerant → reportNotice n false s = s.setChannel c { ch.left with
        tolerated := ch.tolerated + 1, lastTolerated := some .link
        heldSlot := some (.chTolerated c ch.entryIndex (ch.tolerated + 1) (some .link)) }) ∧
      (ch.captured.disposition ≠ some .tolerant →
        State.ChannelFails c .link HaltDetail.none 0 s (reportNotice n false s))) ∧
    (ch.state ≠ .running ∨ ch.noticeWait ≠ .echo → reportNotice n false s = s) := by
  refine ⟨fun h1 h2 => ?_, fun h1 => ?_⟩
  · have key : reportNotice n false s = endUnmet c .link .link HaltDetail.none
        (s.setChannel c { s.channel c with noticeWait := .absent }) := by simp [reportNotice, h, h1, h2]
    obtain ⟨e1, e2⟩ := endUnmet_link c (s.setChannel c { s.channel c with noticeWait := .absent }) (by simpa using h1)
    rw [key]
    refine ⟨fun ht => ?_, fun ht => ?_⟩
    · rw [e1 (by simpa using ht)]; simp [Channel.left]
    · obtain ⟨⟨m, hm, low, which, own⟩, others, ended, kept, notices, last, rest⟩ := e2 (by simpa using ht)
      refine ⟨⟨m, hm, low, which, own.trans (by simp [Channel.left])⟩, fun d hd => (others d hd).trans ?_, ended, kept,
        notices, last, ?_⟩
      · exact State.setChannel_channel_of_ne _ _ (Ne.symm hd)
      · exact (congrArg (fun v : State => { v with engine := s.engine }) rest).trans rfl
  · simp only [reportNotice, h]
    rcases h1 with h1 | h1 <;> simp [h1]

/-- What the abandonment of a frame does (R169). -/
theorem endTransmission_frameAbandoned (f : TryFrame) (s : State) : s.FrameAbandoned f (endTransmission f false s) := by
  refine ⟨?_, ?_, ?_, ?_⟩
  · rintro rfl; rfl
  · rintro fresh p rfl hp
    have hp' : (countAbandoned s).station.pending = some p := hp
    simp only [endTransmission, Bool.false_eq_true, if_false, endPresence, hp']
    refine ⟨fun h => by rw [if_neg (by rw [h]; decide)]; rfl, fun h => ?_⟩
    rw [if_pos h]
    exact returnOffline_returnedOffline ..
  · rintro destination arrival n rest rfl hq
    dsimp only
    generalize hl : ({ s with counters := _, notices := _ } : State) = left
    have key : endTransmission (.notice destination arrival) false s = reportNotice n false left := by
      rw [← hl]
      simp only [endTransmission, Bool.false_eq_true, if_false, popNotice, countAbandoned, hq]
      rfl
    have hc (c : Fin 4) : left.channel c = s.channel c := by rw [← hl]; rfl
    rw [key]
    refine ⟨fun h => by simp [reportNotice, h], fun h => by simp [reportNotice, h], fun c h => ?_⟩
    have r := reportNotice_abandoned n c left h
    simpa only [hc] using r
  · rintro k rfl
    exact attemptOutcome_outcomeTaken k .link _

end Sys2Proof.Machine
end

