-- ==== Sys2Proof/Laws/Exclusion.lean ====
section
/-! SUPPORT. What an exclusion and an address conflict can do, said once: a proof about a conflict cites these instead of
unfolding the exclusion of each block. -/

namespace Sys2Proof.Machine

/-- The lowest of some segments and a first one (R41, R45). -/
theorem foldl_min (l : List Nat) (m : Nat) :
    l.foldl min m ≤ m ∧ (∀ x ∈ l, l.foldl min m ≤ x) ∧ (l.foldl min m = m ∨ l.foldl min m ∈ l) := by
  induction l generalizing m with
  | nil => simp
  | cons a l ih =>
    obtain ⟨h1, h2, h3⟩ := ih (min m a)
    simp only [List.foldl_cons]
    refine ⟨by omega, fun x hx => ?_, ?_⟩
    · rcases List.mem_cons.mp hx with rfl | hx
      · omega
      · exact h2 x hx
    · rcases h3 with h3 | h3
      · rw [h3]
        rcases Nat.le_total m a with h | h
        · exact .inl (Nat.min_eq_left h)
        · exact .inr (by rw [Nat.min_eq_right h]; exact List.mem_cons_self ..)
      · exact .inr (List.mem_cons_of_mem _ h3)

/-- The segments of a channel that are outstanding (R50). -/
theorem mem_outstandingSegments (s : State) (c : Fin 4) (n : Nat) : n ∈ s.outstandingSegments c ↔
    ∃ k, ((s.tag k).owned = true ∧ (s.tag k).owner = some c) ∧ (s.tag k).segment = n := by
  simp only [State.outstandingSegments, List.mem_map, List.mem_filter, State.tag, Bool.and_eq_true, decide_eq_true_eq]
  constructor
  · rintro ⟨g, ⟨hg, h⟩, e⟩
    obtain ⟨i, hi, rfl⟩ := List.mem_iff_getElem.mp hg
    exact ⟨⟨i, by simpa using hi⟩, by simpa using h, by simpa using e⟩
  · rintro ⟨k, h, e⟩
    exact ⟨_, ⟨List.mem_iff_getElem.mpr ⟨k.val, by simp, rfl⟩, by simpa using h⟩, by simpa using e⟩

/-- The test of every window, in one update of the windows (R124, R126). -/
theorem testWindows_eq (s : State) : ∃ ws, testWindows s = { s with responder := { s.responder with windows := ws } } ∧
    ∀ i, (testWindows s).window i = (s.window i).complete i ((testWindows s).inWork i) := by
  unfold testWindows
  suffices ∀ (l : List (Fin 16)), l.Nodup → ∀ u : State, (∃ ws, u = { s with responder := { s.responder with windows := ws } }) →
      (∀ i ∈ l, u.window i = s.window i) →
      ∃ ws, l.foldl (fun s i => testWindow i s) u = { s with responder := { s.responder with windows := ws } } ∧
        ∀ i, (l.foldl (fun s i => testWindow i s) u).window i =
          if i ∈ l then (s.window i).complete i (s.inWork i) else u.window i by
    obtain ⟨ws, e, h⟩ := this (List.finRange 16) (List.nodup_finRange 16) s ⟨_, rfl⟩ fun _ _ => rfl
    exact ⟨ws, e, fun i => by rw [h i, if_pos (List.mem_finRange i), e]; rfl⟩
  intro l
  induction l with
  | nil => exact fun _ u h _ => by obtain ⟨ws, rfl⟩ := h; exact ⟨ws, rfl, fun i => by simp⟩
  | cons k l ih =>
    intro nd u hu hw
    obtain ⟨ws, rfl⟩ := hu
    obtain ⟨hk, hl⟩ := List.nodup_cons.mp nd
    simp only [List.foldl_cons]
    obtain ⟨ws', e, h⟩ := ih hl (testWindow k { s with responder := { s.responder with windows := ws } }) ⟨_, rfl⟩
      fun i hi => by
        rw [testWindow_window_of_ne (by rintro rfl; exact hk hi)]; exact hw i (List.mem_cons_of_mem _ hi)
    refine ⟨ws', e, fun i => ?_⟩
    rw [h i]
    by_cases hi : i = k
    · subst hi
      rw [if_neg hk, testWindow_window_self, hw i (List.mem_cons_self ..)]
      rw [if_pos (List.mem_cons_self ..)]; rfl
    · rw [testWindow_window_of_ne (Ne.symm hi)]
      simp only [List.mem_cons, hi, false_or]

/-- The cursor of a channel that exclusion reaches (R45, R89). -/
theorem excludedCursor_cases (s : State) (c : Fin 4) :
    let sweeping (k : Fin 16) : Prop := ((s.tag k).owned = true ∧ (s.tag k).owner = some c) ∧ (s.tag k).sweep = true
    (∀ k, sweeping k → (∀ j, j < k → ¬ sweeping j) → s.excludedCursor c = (s.tag k).target) ∧
    ((∀ k, ¬ sweeping k) → s.excludedCursor c = (s.channel c).sweepCursor) := by
  have test (k : Fin 16) : ((s.tag k).owned && decide ((s.tag k).owner = some c) && (s.tag k).sweep) = true ↔
      ((s.tag k).owned = true ∧ (s.tag k).owner = some c) ∧ (s.tag k).sweep = true := by simp [and_assoc]
  refine ⟨fun k hk hj => ?_, fun hk => ?_⟩
  · have e : (List.finRange 16).find? (fun t => (s.tag t).owned && decide ((s.tag t).owner = some c) && (s.tag t).sweep) =
        some k := by
      rw [List.find?_eq_some_iff_getElem]
      refine ⟨(test k).mpr hk, k.val, by simp, by simp, fun j hj' => ?_⟩
      have h := mt (test ⟨j, by omega⟩).mp (hj ⟨j, by omega⟩ (Fin.lt_def.mpr (by simpa using hj')))
      rw [Bool.not_eq_true] at h
      simp only [List.getElem_finRange, Bool.not_eq_true']
      exact h
    simp only [State.excludedCursor, e]
  · have e : (List.finRange 16).find? (fun t => (s.tag t).owned && decide ((s.tag t).owner = some c) && (s.tag t).sweep) =
        none := by
      rw [List.find?_eq_none]; exact fun k _ => mt (test k).mp (hk k)
    simp only [State.excludedCursor, e]

/-- What an exclusion does (R45, R73, R89, R126, R132, R160, R174). -/
theorem exclude_excluded (s : State) : State.Excluded s (exclude s) := by
  let v : State := clearRoster (excludeResponder { s with
    engine := { s.engine with
      channels := Vector.ofFn fun c : Fin 4 => (s.channel c).exclude (s.excludedResume c) (s.excludedCursor c)
      tags := mapAll Tag.exclude s.engine.tags }
    notices := { s.notices with queue := [] }
    trunk := { s.trunk with replies := [], yielding := false, line := s.trunk.line.map Try.flush }
    station := { s.station with
      state := .excluded, presenceTimer := .stopped, fresh := false, pending := none, farewellOffered := false } })
  obtain ⟨ws, e, tested⟩ := testWindows_eq v
  have key : exclude s = raiseStation .excluded { v with responder := { v.responder with windows := ws } } := by
    rw [← e]; rfl
  have windows (i : Fin 16) : (exclude s).window i = (s.window i).complete i ((exclude s).inWork i) := by
    rw [e] at tested; rw [key]; exact tested i
  have ch (c : Fin 4) : (exclude s).channel c = (s.channel c).exclude (s.excludedResume c) (s.excludedCursor c) := by
    rw [key]; simp [State.channel, raiseStation, v, clearRoster, excludeResponder, clearMemos]
  rw [key] at ch windows ⊢
  clear key e tested
  refine ⟨rfl, rfl, rfl, rfl, rfl, rfl, rfl, rfl, rfl, fun a => ?_, fun a => ?_, rfl, rfl, rfl, fun k => ?_, fun c hc => ?_,
    fun c hc => ?_, fun c hc => ?_, fun hx => ?_, fun x item rest hx hq => ?_, windows, rfl, rfl, rfl, rfl, rfl, rfl⟩
  · simp [State.peer, raiseStation, v, clearRoster]
  · simp [State.memo, raiseStation, v, clearRoster, excludeResponder, clearMemos]
  · simp [State.tag, raiseStation, v, clearRoster, excludeResponder, clearMemos, mapAll, Tag.exclude]
  · rw [ch]
    obtain ⟨f1, f2, f3⟩ := foldl_min (s.outstandingSegments c) (if (s.channel c).state = .failing then
      (s.channel c).resumeSegment.getD (s.channel c).nextSegment else (s.channel c).nextSegment)
    obtain ⟨cur1, cur2⟩ := excludedCursor_cases s c
    have low (k : Fin 16) (hk : (s.tag k).owned = true ∧ (s.tag k).owner = some c) := f2 _ ((mem_outstandingSegments s c _).mpr ⟨k, hk, rfl⟩)
    have which := f3.imp_right (mem_outstandingSegments s c _).mp
    rcases hc with hc | hc | hc <;> simp only [Channel.exclude, hc, leaveRunning_eq] <;>
      refine ⟨rfl, cur1, cur2, fun hp => by simp [hp], fun hp => ⟨by simp [hp], by simp [hp],
        s.excludedResume c, by simp [hp], ?_⟩⟩ <;>
      simp only [hc] at f1 low which <;> simp only [State.excludedResume, hc] <;> exact ⟨f1, low, which⟩
  · rw [ch]; simp only [Channel.exclude, hc, leaveRunning_eq]; rfl
  · rw [ch]; rcases hc with hc | hc | hc <;> simp [Channel.exclude, hc]
  · simp [raiseStation, v, clearRoster, excludeResponder, clearMemos, hx]
  · simp [raiseStation, v, clearRoster, excludeResponder, clearMemos, hx, hq]

/-- What an address conflict does, by the station state (R148, R160). -/
theorem addressConflict_conflictTaken (s : State) : State.ConflictTaken s (addressConflict s) := by
  refine ⟨fun h => ?_, fun h => ?_, fun h => ?_⟩
  · have e : addressConflict s = exclude s := by rcases h with h | h <;> simp [addressConflict, h]
    exact e ▸ exclude_excluded s
  · simp only [addressConflict, h]; exact returnOffline_returnedOffline ..
  · rcases h with h | h <;> simp [addressConflict, h]

end Sys2Proof.Machine
end

