-- ==== Sys2Proof/Laws/Store.lean ====
section
/-! SUPPORT. The list store: a word reads as it was last written, a write changes one word only, and every write keeps the
store's one form (R1, R2). -/

namespace Sys2Proof.Machine

/-- A word address that is not listed reads as the unwritten word. -/
theorem readStore_of_all_lt {l : List (Nat × Word)} {a : Nat} (h : ∀ c ∈ l, a < c.1) :
    readStore l a = unwrittenWord := by
  induction l with
  | nil => rfl
  | cons c rest ih =>
    obtain ⟨k, v⟩ := c
    have hk : a < k := h (k, v) (by simp)
    simp only [readStore, if_neg (Nat.ne_of_gt hk)]
    exact ih fun c hc => h c (by simp [hc])

/-- What the one form of a store that begins with a cell says. -/
theorem storeWf_cons {k : Nat} {v : Word} {rest : List (Nat × Word)} :
    storeWf ((k, v) :: rest) = true ↔
      k < 4096 ∧ v ≠ unwrittenWord ∧ (∀ c ∈ rest, k < c.1) ∧ storeWf rest = true := by
  simp [storeWf, and_assoc]

/-- The cells after a write are the written one and cells that were there before. -/
theorem mem_writeStore {l : List (Nat × Word)} {a : Nat} {w : Word} {c : Nat × Word}
    (h : c ∈ writeStore l a w) : c = (a, w) ∨ c ∈ l := by
  induction l with
  | nil =>
    simp only [writeStore] at h
    split at h <;> simp_all
  | cons d rest ih =>
    obtain ⟨k, v⟩ := d
    simp only [writeStore] at h
    split at h
    · split at h <;> simp_all
    · split at h
      · split at h
        · exact .inr (by simp [h])
        · rcases List.mem_cons.mp h with h | h
          · exact .inl h
          · exact .inr (by simp [h])
      · rcases List.mem_cons.mp h with h | h
        · exact .inr (by simp [h])
        · rcases ih h with h | h
          · exact .inl h
          · exact .inr (by simp [h])

/-- A write keeps the one form. -/
theorem storeWf_writeStore {l : List (Nat × Word)} {a : Nat} (w : Word) (ha : a < 4096) (h : storeWf l = true) :
    storeWf (writeStore l a w) = true := by
  induction l with
  | nil =>
    simp only [writeStore]
    split
    · rfl
    · next hw => exact storeWf_cons.mpr ⟨ha, hw, by simp, rfl⟩
  | cons d rest ih =>
    obtain ⟨k, v⟩ := d
    obtain ⟨hk, hv, hlt, hr⟩ := storeWf_cons.mp h
    simp only [writeStore]
    split
    · next hak =>
      split
      · exact h
      · next hw =>
        refine storeWf_cons.mpr ⟨ha, hw, ?_, h⟩
        intro c hc
        rcases List.mem_cons.mp hc with rfl | hc
        · exact hak
        · exact Nat.lt_trans hak (hlt c hc)
    · next hak =>
      split
      · next he =>
        subst he
        split
        · exact hr
        · next hw => exact storeWf_cons.mpr ⟨ha, hw, hlt, hr⟩
      · next hne =>
        refine storeWf_cons.mpr ⟨hk, hv, ?_, ih hr⟩
        intro c hc
        rcases mem_writeStore hc with rfl | hc
        · show k < a
          omega
        · exact hlt c hc

/-- A word reads as it was last written; every other word is unchanged. -/
theorem readStore_writeStore {l : List (Nat × Word)} (h : storeWf l = true) (a b : Nat) (w : Word) :
    readStore (writeStore l a w) b = if a = b then w else readStore l b := by
  induction l with
  | nil => simp only [writeStore]; split <;> simp_all [readStore]
  | cons d rest ih =>
    obtain ⟨k, v⟩ := d
    obtain ⟨hk, hv, hlt, hr⟩ := storeWf_cons.mp h
    have hout : ∀ x, x ≤ k → readStore rest x = unwrittenWord := fun x hx =>
      readStore_of_all_lt fun c hc => Nat.lt_of_le_of_lt hx (hlt c hc)
    simp only [writeStore]
    split
    · next hak =>
      have hka : ¬ k = a := by omega
      split
      · next hw =>
        subst hw
        by_cases hab : a = b
        · subst hab; simp [readStore, hka, hout a (by omega)]
        · simp [hab]
      · simp [readStore]
    · split
      · next he =>
        subst he
        split
        · next hw =>
          subst hw
          by_cases hab : a = b
          · subst hab; simp [hout a (Nat.le_refl _)]
          · simp [readStore, hab]
        · simp only [readStore]
          split <;> simp_all
      · next hne =>
        simp only [readStore]
        by_cases hkb : k = b
        · subst hkb; simp [hne]
        · simp [hkb, ih hr]

end Sys2Proof.Machine
end

