-- ==== Sys2Proof/Tests/Slice0.lean ====
section
/-! SUPPORT. The model's own tests: the smoke test of the well-formedness check, one-step tests of the rows with values
taken from the spec's rules and tables, and, for each statement with hypotheses, a state and operands that meet them,
clause by clause. -/

namespace Sys2Proof.Tests

set_option Elab.async false

open Sys2Proof Sys2Proof.Machine

/-! ## Small states -/

/-- The state after a command, or the same state had it stopped. -/
def after (i : Instr) (s : State) : State :=
  match exec i s with
  | .next t => t
  | _ => s

/-- Station 3 after a power-on reset. -/
def offline : State := State.powerOn 3

/-- Incarnation 1, P 10, D 20, retry interval 10, 3 Mbit/s, a ring of 16 records at 0x4000. -/
def config : Configuration := ⟨1, 10, 20, 10, .mbit3, 0x4000, 0, true⟩

/-- Station 3 configured, OFFLINE. -/
def ready : State := { offline with station := { offline.station with config := config } }

/-- The station in a state of R145. -/
def inState (st : StationState) (s : State) : State := { s with station := { s.station with state := st } }

/-- Station 3 JOINED, its presence timer running. -/
def joined : State :=
  { ready with station := { ready.station with state := .joined, presenceTimer := .running 10 } }

/-- The argument registers as a host has written them. -/
def withArgs (a0 a1 a2 a3 : Word) (s : State) : State := { s with port := { s.port with arguments := #v[a0, a1, a2, a3] } }

/-- A PRESENT peer at a roster index, advertising some windows. -/
def withPeer (i : Fin 40) (mask : BitVec 16) (s : State) : State := s.setPeer i ⟨true, 1, mask, 10, .running 30⟩

/-- An entry in the list store. -/
def withEntry (n : Nat) (e : Entry) (s : State) : State :=
  { s with listStore :=
      [(0, e.w0), (1, e.w1), (2, e.w2), (3, e.w3)].foldl (fun l (k, w) => writeStore l (4 * n + k) w) s.listStore }

/-- A channel RUNNING at an entry that it has captured. -/
def running (c : Fin 4) (e : Entry) (s : State) : State :=
  s.setChannel c { Channel.reset with state := .running, captured := e }

/-- A tag with a request of a channel to station 7, window 2, in some state. -/
def withTag (k : Fin 16) (st : TagState) (op : Operation) (c : Fin 4) (s : State) : State :=
  s.setTag k { Tag.reset with
    state := st, owner := some c, operation := op, target := 7, window := 2, generation := true, onLine := true
    timer := .running 20, tries := 1, destination := some [⟨0x8000, 1⟩] }

/-- A try on the line. -/
def onLine (f : TryFrame) (bytes : List Byte) (s : State) : State :=
  { s with trunk := { s.trunk with line := some ⟨f, bytes, .live, false⟩ } }

/-- A burst on the local bus. -/
def onBus (owner : BurstOwner) (s : State) : State :=
  { s with memory := { s.memory with burst := some ⟨owner, 0x8000, 1, none⟩ } }

/-- A read burst's words: all zero but the first two. -/
def data (a b : Word) : Vector Word 16 := ((Vector.replicate 16 0).set 0 a).set 1 b

/-- READ of 40 words of window 2 of station 7, PERSIST limit 5, streamed, chain at 0x1000 (12.1, R192). -/
def readEntry : Entry := ⟨0x020705A1, 0x00280000, 0x1000, 0⟩

/-- CLAIM of word 0 of window 1 of station 4, PERSIST limit 20, expected 0, new 10 (12.2, R192). -/
def claimEntry : Entry := ⟨0x01041424, 0x00000000, 0, 10⟩

/-- WRITE_IMMEDIATE of two words to window 2 of station 7, offset 5, STRICT (R192). -/
def writeEntry : Entry := ⟨0x02070003, 0x00020005, 0xAA, 0xBB⟩

/-- A sweeping READ of 2 words of window 2, from station 1, chain at 0x1000 (R192). -/
def sweepEntry : Entry := ⟨0x02010031, 0x00020000, 0x1000, 0⟩

/-- NOTICE to all, code 50, argument 0x1234, STRICT (R192). -/
def noticeEntry : Entry := ⟨0x5, 0x12343200, 0, 0⟩

/-- WAIT on booking 3, timeout 100 ms, STRICT (R192). -/
def waitEntry : Entry := ⟨0x6, 0x00640003, 0, 0⟩

/-- The same, TOLERANT. -/
def waitTolerant : Entry := ⟨0x16, 0x00640003, 0, 0⟩

/-- MARK with code 9 (R192). -/
def markEntry : Entry := ⟨0x7, 0x9, 0, 0⟩

/-- The presence of station 7, incarnation 5, fresh, interval 10, window 2 advertised, its check reckoned apart from the
model (R164, R190). -/
def presence7 : List Byte := [0x04, 0x00, 0x07, 0x05, 0x01, 0x0A, 0x04, 0x00, 0x00, 0x00, 0x4C, 0x3B]

/-- A notice of station 9 to all, code 50, argument 0x1234, its check reckoned apart from the model (R164, R190). -/
def notice9 : List Byte := [0x03, 0x00, 0x09, 0x32, 0x34, 0x12, 0x00, 0x00, 0x00, 0x00, 0x65, 0x59]

/-- A READ request of station 9 to station 3: tag 5, generation 1, window 6, offset 4, count 8 (R190). -/
def read9 : List Byte := [0x01, 0x03, 0x09, 0x15, 0x00, 0x06, 0x04, 0x00, 0x08, 0x00, 0x30, 0x3A]

/-- A CLAIM request of station 9 to station 3: tag 3, generation 0, window 6, offset 9, expected 0, new 12 (R190). -/
def claim9 : List Byte :=
  [0x01, 0x03, 0x09, 0x03, 0x02, 0x06, 0x09, 0x00, 0x01, 0x00, 0x00, 0x00, 0x00, 0x00, 0x0C, 0x00, 0x00, 0x00, 0x3B, 0x9F]

/-- The reply ACCEPTED of station 7 to station 3: tag 0, generation 1, window 2, offset 0, two words 11 and 12 (R190). -/
def reply7 : List Byte :=
  [0x02, 0x03, 0x07, 0x10, 0x00, 0x02, 0x00, 0x00, 0x02, 0x00, 0x0B, 0x00, 0x00, 0x00, 0x0C, 0x00, 0x00, 0x00, 0x0A, 0x6F]

/-- A presence with station 3's own address as source (R173). -/
def ownPresence : List Byte := [0x04, 0x00, 0x03, 0x01, 0x00, 0x0A, 0x00, 0x00, 0x00, 0x00, 0xB6, 0x7A]

/-- Window 6, OPEN, READ_WRITE, unpaired, 256 words at 0x8000, permitting stations 3, 9 and 12 (chapter 6's example). -/
def window6 : Window := ⟨.opened, .readWrite, false, 0x8000, 0, 256, 0x904, .a, false, false, []⟩

/-- Station 3 JOINED with window 6. -/
def exporting : State := joined.setWindow 6 window6

/-- A work item of station 9 against window 6. -/
def item9 (op : Operation) : WorkItem := ⟨9, 5, true, op, 6, 4, 1, .a, 0x8010, [0, 12], decide (op = .claim)⟩

/-- Station 3 executing a work item. -/
def executing (stage : ItemStage) (op : Operation) : State :=
  { exporting with responder := { exporting.responder with queue := [item9 op], execution := some ⟨stage, false⟩ } }

/-- A booking of code 50 from any station, mode EVERY, with the given actions. -/
def booking50 (post start release : Bool) : Booking := ⟨.armed, none, 50, post, start, release, 1, 200, false, 0, false⟩

/-- A pending presence. -/
def pendingPresence (fresh leaving : Bool) : Presence := ⟨1, fresh, leaving, 10, 0, 1⟩

/-! ## Well-formedness: each check refuses -/

theorem test_wellFormed_refuses_own_rows :
    ∀ r : Fin 16, (Instr.registerWrite r 0).WellFormed = decide (r.val ∈ [2, 3, 4, 5, 6, 9, 12, 13, 14, 15]) := by decide

theorem test_wellFormed_refuses_reset_while_executing :
    (Instr.commandWriteWhileExecuting 0x04).WellFormed = false ∧
      (Instr.commandWriteWhileExecuting 0x05).WellFormed = true := by decide

theorem test_wellFormed_refuses_known_codes :
    (Instr.unknownCommandCode 1).WellFormed = false ∧ (Instr.unknownCommandCode 17).WellFormed = false ∧
      (Instr.unknownCommandCode 0).WellFormed = true ∧ (Instr.unknownCommandCode 18).WellFormed = true := by decide

theorem test_wellFormed_refuses_no_station_key :
    (Instr.contentionSlot (some 0xC0)).WellFormed = false ∧ (Instr.contentionSlot (some 0xE9)).WellFormed = false ∧
      (Instr.contentionSlot (some 0xE8)).WellFormed = true ∧ (Instr.contentionSlot none).WellFormed = true := by decide

theorem test_wellFormed_refuses_no_station_silence :
    (Instr.silenceTimerExpiry 0).WellFormed = false ∧ (Instr.silenceTimerExpiry 41).WellFormed = false ∧
      (Instr.silenceTimerExpiry 40).WellFormed = true := by decide

/-! ## The table's rows -/

/-- No row of the table has bits. -/
theorem test_no_word_spells_a_command : decodeTableWord 32 0x04 = none := by decide

/-- 11.1: a command is taken from the front of the queue. -/
theorem test_step_takes_front :
    (match step { ready with pending := [.join, .reset] } with
      | .next t => decide (t.station.state = .listening ∧ t.pending = [.reset])
      | _ => false) = true := by decide +kernel

/-- R164, R190: the frames written out above pass the receive checks, and a changed byte fails them. -/
theorem test_receive_checks :
    [presence7, notice9, read9, claim9, reply7, ownPresence].all receiveChecks = true ∧
      receiveChecks (presence7.set 3 0x06) = false := by decide +kernel

/-- R190: the bytes of a request, a notice and a presence as sent. -/
theorem test_frames_as_sent :
    ((withTag 0 .queued .read 0 joined).setTag 0 { (withTag 0 .queued .read 0 joined).tag 0 with count := 2 }).requestFrame 0 =
        [0x01, 0x07, 0x03, 0x10, 0x00, 0x02, 0x00, 0x00, 0x02, 0x00, 0x38, 0xE2] ∧
      (State.powerOn 9).noticeFrame ⟨0, 50, 0x1234, .host, 0⟩ = notice9 ∧
      (State.powerOn 7).presenceFrame ⟨5, true, false, 10, 4, 0⟩ = presence7 := by decide +kernel

/-- R142: after a power-on reset status shows the strap address 40 and OFFLINE. -/
theorem test_powerOnReset : (after (.powerOnReset 40) joined).statusWord = 0x2800 := by decide +kernel

/-- R144: presence interval 0 is out of range. -/
theorem test_configure_range : (after .configure (withArgs 0x0A140001 1 0x4000 0 ready)).resultWord = 5 := by decide +kernel

/-- R144, R195: incarnation 1, P 10, D 20, retry 10, 3 Mbit/s, code 0, base 0x4000. -/
theorem test_configure : (after .configure (withArgs 0x0A140A01 1 0x4000 0 offline)).station.config = config := by decide +kernel

/-- R147: JOIN starts the listening timer with 2 P. -/
theorem test_join : (after .join ready).station.listeningTimer = .running 20 := by decide +kernel

/-- R147: address 41 cannot join. -/
theorem test_join_address : (after .join { ready with station := { ready.station with strap := 41 } }).resultWord = 4 := by
  decide +kernel

/-- R156: LEAVE in OFFLINE is BAD_STATE; R157: in JOINED it is ACCEPTED. -/
theorem test_leave : (after .leave ready).resultWord = 4 ∧ (after .leave joined).resultWord = 2 := by decide +kernel

/-- R1, R162: a station reset keeps the list store and clears the configuration. -/
theorem test_reset :
    (after .reset (withEntry 5 readEntry joined)).entry 5 = readEntry ∧
      (after .reset joined).station.config = Configuration.reset := by decide +kernel

/-- R25: an unloaded store is all END: START reports CH_DONE at once. -/
theorem test_start_end : ((after .start (withArgs 2 0 0 0 joined)).channel 2).heldSlot = some (.chDone 2 .host) := by
  decide +kernel

/-- R8: a READ of the own station fails check 7. -/
theorem test_start_check :
    ((after .start (withEntry 0 ⟨0x02030001, 0x00280000, 0x1000, 0⟩ (withArgs 0 0 0 0 joined))).channel 0).haltDetail =
      ⟨none, some 7, none⟩ := by decide +kernel

/-- R9: the WAIT of entry 1023 with its latch set is followed by entry 1024, which halts with END_OF_STORE. -/
theorem test_start_end_of_store :
    ((after .start (withEntry 1023 waitEntry (withArgs 0x03FF0000 0 0 0
      (joined.setBooking 3 { Booking.reset with latch := true })))).channel 0).heldSlot =
      some (.chHalted 0 .host 1024 (some .badEntry) ⟨none, some 15, none⟩ 0) := by decide +kernel

/-- R38: STOP of an IDLE channel is BAD_STATE, of a RUNNING one ACCEPTED. -/
theorem test_stop :
    (after .stop joined).resultWord = 4 ∧ (after .stop (running 0 readEntry joined)).resultWord = 2 := by decide +kernel

/-- R30: a halted READ goes on at its resume segment. -/
theorem test_resume :
    ((after .resume (withEntry 0 readEntry (joined.setChannel 0 { Channel.reset with
      state := .halted, captured := readEntry, resumeSegment := some 1 }))).channel 0).nextSegment = 1 := by decide +kernel

/-- R4: a resumed entry of another kind fails check 14. -/
theorem test_resume_mismatch :
    ((after .resume (withEntry 0 claimEntry (joined.setChannel 0 { Channel.reset with
      state := .halted, captured := readEntry, resumeSegment := some 1 }))).channel 0).haltDetail =
      ⟨none, some 14, none⟩ := by decide +kernel

/-- R119: size 0 stands for 65536 words; station 33 lies in bit 8 of argument 0. -/
theorem test_windowSet :
    ((after .windowSet (withArgs 0x00000166 0x8000 0 0 joined)).window 6).size = 65536 ∧
      ((after .windowSet (withArgs 0x00000166 0x8000 0 0 joined)).window 6).permits 33 = true := by decide +kernel

/-- R120, chapter 6's example: HOLD of a window without work raises WINDOW_HELD at once. -/
theorem test_hold : ((after .hold (withArgs 6 0 0 0 exporting)).window 6).events = [.windowHeld 6] := by decide +kernel

/-- R121: RELEASE with the hold pending is BUSY. -/
theorem test_release : (after .release (after .hold (withArgs 6 0 0 0 exporting))).resultWord = 3 := by decide +kernel

/-- R122, 12.5: FLIP of a paired window publishes B; with a READ of A queued, WINDOW_FLIPPED waits. -/
theorem test_flip :
    ((after .flip (withArgs 6 0 0 0 (exporting.setWindow 6 { window6 with paired := true }))).window 6).events =
        [.windowFlipped 6 .b] ∧
      ((after .flip (withArgs 6 0 0 0 ((executing (.reading ⟨0x8010, 0x8010, 1, [], true⟩) .read).setWindow 6
        { window6 with paired := true }))).window 6).events = [] := by decide +kernel

/-- R123: CLOSE of a window without work raises WINDOW_CLOSED and makes a presence. -/
theorem test_close :
    ((after .close (withArgs 6 0 0 0 exporting)).window 6).state = .closed ∧
      (after .close (withArgs 6 0 0 0 exporting)).station.pending.isSome = true := by decide +kernel

/-- R139, R195: BOOK of booking 3, filter 9, code 51, RELEASE, EVERY (12.3). -/
theorem test_book :
    (after .book (withArgs 0x24330903 0 0 0 joined)).booking 3 =
      ⟨.armed, some 9, 51, false, false, true, 0, 0, false, 0, false⟩ := by decide +kernel

/-- R140, R195: UNBOOK in form QUERY of an ARMED booking with its latch set and match count 2. -/
theorem test_unbook :
    (after .unbook (withArgs 0x00000103 0 0 0 (joined.setBooking 3
      { Booking.reset with state := .armed, latch := true, matchCount := 2 }))).port.arguments[1] = 0x00020101 := by
  decide +kernel

/-- R131: NOTICE joins the queue in JOINED. -/
theorem test_notice :
    (after .notice (withArgs 0x12343200 0 0 0 joined)).notices.queue = [⟨0, 50, 0x1234, .host, 0⟩] := by decide +kernel

/-- R188: EVENT_RING_RESET discards the droppable events and counts them. -/
theorem test_eventRingReset :
    (after .eventRingReset { ready with writer := { ready.writer with
      slots := [.peerLost 7 .silent, .startMissed 0 1], producer := 5 } }).counters.droppedEvents = 2 := by decide +kernel

/-- R178: COUNTERS_CLEAR leaves the drop count. -/
theorem test_countersClear :
    (after .countersClear { ready with
      counters := ⟨1, 2, 3, 4, 5⟩, writer := { ready.writer with dropCount := 5 } }).writer.dropCount = 5 := by decide +kernel

/-- A command that waits for the record write in flight. -/
def waitingRing : State := { ready with port := { ready.port with executing := some .eventRingReset } }

/-- R176: the waiting command is taken once no record write is in flight, and status shows it executing until then. -/
theorem test_pendingCommandTaken :
    waitingRing.resultWord = 0x80000000 ∧ (after .pendingCommandTaken waitingRing).resultWord = 1 := by decide +kernel

/-- R2: a list address is taken modulo 4096. -/
theorem test_listAddressWrite : (after (.listAddressWrite 4097) ready).port.listAddress = 1 := by decide +kernel

/-- R2: the address wraps from 4095 to 0. -/
theorem test_listDataRead :
    (after .listDataRead { ready with listStore := [(4095, 7)], port := { ready.port with listAddress := 4095 } }).port.readData = 7 ∧
      (after .listDataRead { ready with port := { ready.port with listAddress := 4095 } }).port.listAddress = 0 := by
  decide +kernel

/-- R2: writing a zero leaves no listed word. -/
theorem test_listDataWrite :
    (after (.listDataWrite 0) (after (.listAddressWrite 9) (after (.listDataWrite 5) (after (.listAddressWrite 9) ready)))).listStore =
      [] := by decide +kernel

/-- R180: releasing more records than lie in the ring sets the ring error. -/
theorem test_consumerIndexWrite :
    (after (.consumerIndexWrite 1) ready).writer.ringError = true ∧
      (after (.consumerIndexWrite 2) { ready with writer := { ready.writer with producer := 4 } }).unconsumed = 2 := by
  decide +kernel

/-- R175: writing 1 to ring error clears it. -/
theorem test_statusWrite :
    (after (.statusWrite 0x20000) (after (.consumerIndexWrite 1) ready)).writer.ringError = false := by decide +kernel

/-- R181: with RECORDS enabled and one record unconsumed the line is asserted. -/
theorem test_interruptEnableWrite :
    (after (.interruptEnableWrite 1) { ready with writer := { ready.writer with producer := 1 } }).interruptLine = true := by
  decide +kernel

/-- R175: a write of a counter changes nothing; argument 2 takes the word. -/
theorem test_registerWrite :
    after (.registerWrite 12 7) ready = ready ∧ (after (.registerWrite 5 7) ready).port.arguments[2] = 7 := by decide +kernel

/-- R176: a JOIN while a command executes is BUSY, and the command goes on; a RESET is taken. -/
theorem test_commandWriteWhileExecuting :
    (after (.commandWriteWhileExecuting 0x02) waitingRing).resultWord = 0x80000003 ∧
      (after (.commandWriteWhileExecuting 0x04) waitingRing).resultWord = 1 := by decide +kernel

/-- R177: code 0x12 names no command. -/
theorem test_unknownCommandCode : (after (.unknownCommandCode 0x12) ready).resultWord = 5 := by decide +kernel

/-- R165: a notice's key 0x83 loses to 0x81 and wins against 0x84. -/
theorem test_contentionSlot :
    let s := after .notice (withArgs 0x12343200 0 0 0 joined)
    (after (.contentionSlot (some 0x81)) s).trunk.line = none ∧
      (after (.contentionSlot (some 0x84)) s).trunk.line.isSome = true := by decide +kernel

/-- R166: a request whose try has failed is chosen ahead of one QUEUED in a tag before it. -/
theorem test_contentionSlot_keeps_turn :
    let s := (withTag 4 .queued .read 0 joined).setTag 2 { (withTag 2 .queued .read 0 joined).tag 2 with tries := 0 }
    (after (.contentionSlot none) s).trunk.line.map Try.frame = some (.request 4) := by decide +kernel

/-- Two segments of one WRITE in their first attempts, the later one in the lower tag. -/
def crossed : State :=
  (withTag 4 .queued .write 0 ((withTag 2 .queued .write 0 (withTag 4 .queued .write 0 joined)).setTag 2
    { (withTag 2 .queued .write 0 joined).tag 2 with segment := 1, attempts := 1, tries := 0 })).setTag 4
    { (withTag 4 .queued .write 0 joined).tag 4 with segment := 0, attempts := 1, tries := 0 }

/-- R166: of two segments of one WRITE the rotation takes the one whose tag comes first from the pointer. -/
theorem test_contentionSlot_rotation :
    (after (.contentionSlot none) crossed).trunk.line.map Try.frame = some (.request 2) ∧
      (after (.contentionSlot none) { crossed with trunk := { crossed.trunk with pointer := 3 } }).trunk.line.map Try.frame =
        some (.request 4) := by decide +kernel

/-- R56: a request's complete echo makes its tag SENT with deadline D. -/
theorem test_tryEnd :
    (after (.tryEnd [1]) (onLine (.request 4) [1] (withTag 4 .queued .read 0 joined))).tag 4 =
      { (withTag 4 .queued .read 0 joined).tag 4 with state := .sent, timer := .running 20 } := by decide +kernel

/-- R133, 12.3: the echo of an own broadcast is compared with the own bookings. -/
theorem test_ownNoticeHeard :
    ((after (.ownNoticeHeard [1]) (onLine (.notice 0 ⟨3, 50, 7⟩) [1]
      (joined.setBooking 0 (booking50 true false false)))).booking 0).matchCount = 1 := by decide +kernel

/-- R110, R125: a READ of window 6 beyond its size is answered RANGE; of window 5, NO_WINDOW. -/
theorem test_receiveFrame_request :
    ((after (.receiveFrame ⟨read9, .mbit3, false⟩) (joined.setWindow 6 { window6 with size := 11 })).trunk.replies.map
        fun q => q.reply.status) = [.range] ∧
      ((after (.receiveFrame ⟨read9, .mbit3, false⟩) joined).trunk.replies.map fun q => q.reply.status) = [.noWindow] := by decide +kernel

/-- A frame of kind 5 from station 7, its check good. -/
def kind5 : List Byte := [0x05, 0x00, 0x07, 0x05, 0x01, 0x0A, 0x04, 0x00, 0x00, 0x00, 0x09, 0x54]

/-- R154, R172: a frame of no kind, its check good, is a check error and restarts the silence timer of its source. -/
theorem test_receiveFrame_check_error :
    let s := joined.setPeer 6 ⟨true, 5, 0, 10, .running 1⟩
    let t := after (.receiveFrame ⟨kind5, .mbit3, false⟩) s
    (t.peer 6).silence = .running 30 ∧ t.counters.checkErrors = 1 ∧
      ((after (.receiveFrame ⟨kind5.set 9 0x01, .mbit3, false⟩) s).peer 6).silence = .running 1 := by decide +kernel

/-- R153: the presence of an ABSENT station joins it and raises PEER_JOINED. -/
theorem test_receiveFrame_presence :
    (after (.receiveFrame ⟨presence7, .mbit3, false⟩) joined).isPresent 7 = true ∧
      (after (.receiveFrame ⟨presence7, .mbit3, false⟩) joined).writer.slots = [.peerJoined 7 5] := by decide +kernel

/-- 12.1: TIMEOUT below the limit sends the tag to BACKOFF for the retry interval. -/
theorem test_deadlineExpiry :
    (((after (.deadlineExpiry 1) (withTag 1 .sent .read 0 (running 0 readEntry joined))).tag 1).state,
      ((after (.deadlineExpiry 1) (withTag 1 .sent .read 0 (running 0 readEntry joined))).tag 1).timer) =
      (.backoff, .running 10) := by decide +kernel

/-- 12.1: the retry keeps the generation and sets the repeat flag; R64: towards an ABSENT peer the attempt ends ABSENT. -/
theorem test_retryExpiry :
    ((after (.retryExpiry 1) (withTag 1 .backoff .read 0 (withPeer 6 4 (running 0 readEntry joined)))).tag 1).repeated = true ∧
      ((after (.retryExpiry 1) (withTag 1 .backoff .read 0 (running 0 readEntry joined))).tag 1).lastOutcome =
        some .absent := by decide +kernel

/-- R65: a tag answered with generation 1 and then with 0 carries the flag clear at each flip; once an ABSENT attempt with
generation 1 is reissued, the flag is set, since an earlier attempt with 1 was on the line. -/
theorem test_retryExpiry_two_flips :
    let peered := withPeer 6 4 (running 0 readEntry joined)
    let ended (tag : Tag) (answered : Bool) : Tag :=
      { tag with state := .backoff, timer := .running 1, onLine := answered, lastAnswered := answered }
    let again (tag : Tag) : Tag := (after (.retryExpiry 1) (peered.setTag 1 tag)).tag 1
    let second := again (ended ((withTag 1 .sent .claim 0 peered).tag 1) true)
    let third := again (ended second true)
    let fourth := again (ended third false)
    (second.generation, second.repeated) = (false, false) ∧ (third.generation, third.repeated) = (true, false) ∧
      (fourth.generation, fourth.repeated) = (true, true) := by decide +kernel

/-- 12.1: a cooled tag is FREE. -/
theorem test_coolingExpiry :
    ((after (.coolingExpiry 1) (withTag 1 .cooling .read 0 joined)).tag 1).state = .free := by decide +kernel

/-- A channel WAITING on booking 3. -/
def waiting (e : Entry) : State :=
  joined.setChannel 0 { Channel.reset with
    state := .waiting, captured := e, waitBooking := some 3, waitTimer := .running 100 }

/-- R22, R34: STRICT halts with WAIT_TIMEOUT, TOLERANT raises CH_TOLERATED with count 1. -/
theorem test_waitTimerExpiry :
    ((after (.waitTimerExpiry 0) (waiting waitEntry)).channel 0).haltError = some .waitTimeout ∧
      ((after (.waitTimerExpiry 0) (waiting waitTolerant)).channel 0).heldSlot =
        some (.chTolerated 0 0 1 (some .waitTimeout)) := by decide +kernel

/-- Station 3 LISTENING. -/
def listening : State :=
  { ready with station := { ready.station with state := .listening, listeningTimer := .running 20 } }

/-- R148: the station has joined, its first presence fresh. -/
theorem test_listeningTimerExpiry :
    (after .listeningTimerExpiry listening).station.state = .joined ∧
      (after .listeningTimerExpiry listening).station.pending.map Presence.fresh = some true := by decide +kernel

/-- R149, R151: the presence advertises window 6. -/
theorem test_presenceTimerExpiry :
    (after .presenceTimerExpiry exporting).station.pending.map Presence.mask = some 0x40 := by decide +kernel

/-- R154: PEER_LOST(SILENT). -/
theorem test_silenceTimerExpiry :
    (after (.silenceTimerExpiry 7) (withPeer 6 4 joined)).writer.slots = [.peerLost 7 .silent] := by decide +kernel

/-- R92: the walk of 12.1's READ fetches descriptor 0 at 0x1000. -/
theorem test_prepareSegment :
    (match ((after (.prepareSegment 0) (running 0 readEntry joined)).channel 0).preparation with
      | some ⟨0, .fetching _ a, _⟩ => decide (a.base = 0x1000 ∧ a.left = 2)
      | _ => false) = true := by decide +kernel

/-- A channel with segment 0 of an entry prepared. -/
def prepared (e : Entry) : State :=
  (running 0 e (withPeer 6 4 joined)).setChannel 0
    { (running 0 e joined).channel 0 with prepared := some ⟨0, [⟨0x8000, 16⟩]⟩ }

/-- R55: the grant flips the generation of tag 0 and carries data A and B of a WRITE_IMMEDIATE. -/
theorem test_tagGrant :
    ((after .tagGrant (prepared writeEntry)).tag 0).generation = true ∧
      ((after .tagGrant (prepared writeEntry)).tag 0).payload = [0xAA, 0xBB] := by decide +kernel

/-- R129: the channel's frame takes the free place. -/
theorem test_noticePlaceGrant :
    (after .noticePlaceGrant (joined.setChannel 1 { Channel.reset with
      state := .running, captured := noticeEntry, noticeWait := .place })).notices.queue =
      [⟨0, 50, 0x1234, .channel 1, 0⟩] := by decide +kernel

/-- R184: the record of producer index 5 lies at 0x4050; R193: STATION JOINED is 0x40 with 1. -/
theorem test_busGrant :
    (after .busGrant { ready with writer := { ready.writer with
      inFlight := some ⟨some 20, .station .joined, 5⟩ } }).memory.burst =
      some ⟨.writer, 0x4050, 4, some [0x00050040, 1, 0, 0]⟩ := by decide +kernel

/-- R102, 12.2: an equal CLAIM word is written, and the reply is won with the previous value. -/
theorem test_burstResponse_claim :
    ((after (.burstResponse false (data 0 0)) (onBus .responder (executing (.claimWrite 0) .claim))).trunk.replies.map
      fun q => (q.reply.won, q.reply.payload)) = [(true, [0])] := by decide +kernel

/-- R187: an error response of the record write sets the event fault; R87: at a sweep record the cursor stays at its
peer. -/
theorem test_burstResponse_fault :
    (after (.burstResponse true (data 0 0)) (onBus .writer { ready with writer := { ready.writer with
      inFlight := some ⟨some 20, .station .joined, 5⟩ } })).writer.eventFault = true ∧
      ((after (.burstResponse true (data 0 0)) (onBus (.completion 0) ((running 0 sweepEntry joined).setChannel 0
        { (running 0 sweepEntry joined).channel 0 with
          sweepCursor := 4
          writes := [⟨none, 0, some ⟨9, .timeout, []⟩, .writing [⟨0x8000, 0x8000, [0x909]⟩], true⟩] }))).channel 0).sweepCursor = 9 := by
  decide +kernel

/-- Chapter 10's example: with a drop count, EVENTS_DROPPED is written first. -/
theorem test_eventWriteBegin :
    (after .eventWriteBegin { ready with writer := { ready.writer with dropCount := 2 } }).writer.inFlight =
      some ⟨none, .eventsDropped 2, 0⟩ := by decide +kernel

/-- R36: a FAILING channel that owns no tag reports. -/
theorem test_channelEnterReporting :
    ((after (.channelEnterReporting 1) (joined.setChannel 1 { Channel.reset with
      state := .failing, haltError := some .left, resumeSegment := some 1, entryIndex := 4 })).channel 1).heldSlot =
      some (.chHalted 1 .host 4 (some .left) HaltDetail.none 1) := by decide +kernel

/-- R124: a CLOSING window whose work is done closes. -/
theorem test_windowCompletion :
    ((after (.windowCompletion 6) (joined.setWindow 6 { window6 with state := .closing })).window 6).events =
      [.windowClosed 6] := by decide +kernel

/-- Station 3 LEAVING. -/
def leaving : State := inState .leaving joined

/-- R158: the farewell is pending once the drain condition holds. -/
theorem test_farewellOffer : (after .farewellOffer leaving).station.pending.map Presence.leaving = some true := by
  decide +kernel

/-! ## The formats of the records -/

/-- R87, R193: the headers of the chapter 4 example: station 3 ACCEPTED with 2 words, station 9 TIMEOUT. -/
theorem test_sweep_headers :
    SweepRecord.header ⟨3, .accepted, [1, 2]⟩ = 0x00020103 ∧ SweepRecord.header ⟨9, .timeout, []⟩ = 0x00000909 := by
  decide +kernel

/-- R193: CH_HALTED with LEFT (18) at entry 4, resume segment 1, of channel 1, written at producer index 2. -/
theorem test_halted_record :
    Event.words (.chHalted 1 .host 4 (some .left) HaltDetail.none 1) 2 = [0x00020003, 0x00040001, 0x01000012, 0] := by
  decide +kernel

/-! ## The hypotheses of the statements are met

For each statement, states and operands that meet its hypotheses, clause by clause and at the ends of the ranges. -/

/-- A record write in flight. -/
def writing (source : Option (Fin 22)) (e : Event) : State :=
  { ready with writer := { ready.writer with inFlight := some ⟨source, e, 0⟩ } }

/-- A CONFIGURE that waits. -/
def waitingConfigure : State :=
  { ready with port := { ready.port with executing := some (.configure #v[0x01010101, 0x803, 0xFFFFFFF0, 0]) } }

theorem test_meets_CommandRefusals :
    ready.port.executing = none ∧ waitingRing.port.executing ≠ none ∧
      Instr.commandCode 0xFFFFFF00 = 0 ∧ 17 < Instr.commandCode 0x12 ∧ 17 < Instr.commandCode 0xFF ∧
      Instr.commandCode 0x03 ≠ 4 ∧ Instr.commandCode 0x05 ≠ 4 ∧ Instr.commandCode 0xABCDEF04 = 4 := by decide +kernel

theorem test_meets_CommandCodes :
    ∀ n : Fin 18, Instr.commandCode (BitVec.ofNat 32 (0xABCDEF00 + n.val)) = n.val := by decide +kernel

theorem test_meets_WaitingCommands :
    (writing none (.eventsDropped 1)).port.executing = none ∧ (writing none (.eventsDropped 1)).writer.inFlight ≠ none ∧
      Arguments.configuration #v[0x01010101, 0x803, 0xFFFFFFF0, 0] ≠ none ∧
      waitingRing.writer.inFlight = none ∧ waitingRing.port.executing = some .eventRingReset ∧
      waitingConfigure.writer.inFlight = none ∧ waitingConfigure.station.state = .offline ∧
      (inState .excluded waitingConfigure).station.state ≠ .offline := by decide +kernel

/-- The arguments of CONFIGURE at the ends of their ranges: the first two in range, the others out of it. -/
theorem test_meets_ConfigureEffect :
    ready.port.executing = none ∧ ready.writer.inFlight = none ∧ ready.station.state = .offline ∧
      joined.station.state ≠ .offline ∧
      [(#v[0x01010100, 0x000, 0, 0] : Arguments), #v[0xFFFFFFFF, 0x803, 0xFFFFFFF0, 0], #v[0x01010000, 0, 0, 0],
        #v[0x01000100, 0, 0, 0], #v[0x00010100, 0, 0, 0], #v[0x01010100, 4, 0, 0], #v[0x01010100, 0x900, 0, 0],
        #v[0x01010100, 0, 8, 0]].map (fun a => decide (field a[0] 8 8 = 0 ∨ field a[0] 16 8 = 0 ∨ field a[0] 24 8 = 0 ∨
          3 < field a[1] 0 3 ∨ 8 < field a[1] 8 4 ∨ field a[2] 0 4 ≠ 0)) = [false, false, true, true, true, true, true, true] := by decide +kernel

theorem test_meets_RingResetAndCountersClear : ready.port.executing = none ∧ ready.writer.inFlight = none := by decide +kernel

theorem test_meets_ListPortEffect :
    State.StoreSound { ready with listStore := [(0, 1), (4095, 7)], port := { ready.port with listAddress := 4095 } } := by
  unfold State.StoreSound; decide

/-- 16 unconsumed records fit the ring of 16, 17 do not; a record in flight counts as placed. -/
theorem test_meets_ConsumerIndexWrite :
    let count (s : State) (value : Word) : Nat :=
      (s.writer.producer.toNat + s.writer.inFlight.isSome.toNat + 65536 - value.toNat % 65536) % 65536
    count ready 65520 ≤ ready.ringSize ∧ ready.ringSize < count ready 65519 ∧
      count (writing none (.eventsDropped 1)) 1 ≤ ready.ringSize ∧ ready.ringSize < count ready 1 := by decide +kernel

theorem test_meets_StatusAndEnableWrites : bit (0x00020000 : Word) 17 = true ∧ bit (0xFFFDFFFF : Word) 17 = false := by decide +kernel

theorem test_meets_RegisterWriteEffect :
    (3 : Fin 16).val = 3 + (0 : Fin 4).val ∧ (6 : Fin 16).val = 3 + (3 : Fin 4).val ∧
      ∀ r : Fin 16, r.val ∈ [0, 1, 2, 7, 8, 9, 10, 11, 12, 13, 14, 15] ∨ ∃ i : Fin 4, r.val = 3 + i.val := by decide +kernel

/-- READY at address 1 and 40 may join; addresses 0 and 41, and an unconfigured ring, may not. -/
theorem test_meets_JoinEffect :
    let at_ (a : BitVec 6) : State := { ready with station := { ready.station with strap := a } }
    ready.port.executing = none ∧ joined.station.state ≠ .offline ∧ ready.station.state = .offline ∧
      (at_ 0).ownAddress = 0 ∧ 40 < (at_ 41).ownAddress ∧ offline.station.config.ringConfigured = false ∧
      1 ≤ (at_ 1).ownAddress ∧ (at_ 40).ownAddress ≤ 40 ∧ ready.station.config.ringConfigured = true ∧
      ready.station.events = [] ∧ (raiseStation .left ready).station.events ≠ [] := by decide +kernel

theorem test_meets_LeaveOutsideJoined :
    ready.port.executing = none ∧ ready.station.state = .offline ∧ leaving.station.state = .leaving ∧
      listening.station.state = .listening ∧ (inState .excluded ready).station.state = .excluded := by decide +kernel

/-- A reply in the reply queue. -/
def queuedReply (tries : Nat) : QueuedReply := ⟨⟨9, 5, true, .range, false, 6, 4, 8, []⟩, false, tries⟩

/-- Replies in the reply queue. -/
def withReplies (l : List QueuedReply) (s : State) : State := { s with trunk := { s.trunk with replies := l } }

/-- A presence pending. -/
def withPending (p : Presence) (s : State) : State := { s with station := { s.station with pending := some p } }

/-- A notice of some origin in the queue. -/
def withNotice (origin : Origin) (tries : Nat) (s : State) : State :=
  { s with notices := { s.notices with queue := [⟨0, 50, 0, origin, tries⟩] } }

/-- Channel 0 paused at CH_TOLERATED, channel 1 RUNNING with a BACKOFF tag, channel 2 WAITING, channel 3 IDLE. -/
def busy : State :=
  withTag 4 .backoff .read 1 ((((running 1 readEntry joined).setChannel 2 { Channel.reset with
    state := .waiting, captured := waitEntry, waitBooking := some 3 }).setChannel 0 { Channel.reset with
    state := .running, captured := waitTolerant, tolerated := 1, heldSlot := some (.chTolerated 0 0 1 none) }))

/-- The busy station, with a completing tag in BACKOFF beside it. -/
theorem test_meets_LeaveInJoined :
    busy.port.executing = none ∧ busy.station.state = .joined ∧
      (busy.channel 0).state = .running ∧ (busy.channel 0).pausedAtTolerated = true ∧
      (busy.channel 1).state = .running ∧ (busy.channel 1).pausedAtTolerated = false ∧
      (busy.channel 2).state = .waiting ∧ (busy.channel 3).state ≠ .running ∧ (busy.channel 3).state ≠ .waiting ∧
      (busy.tag 4).state = .backoff ∧ (busy.tag 4).completing = false ∧ (busy.tag 4).owner = some 1 ∧
      (busy.tag 0).state ≠ .backoff ∧
      ((busy.setTag 5 { busy.tag 4 with completing := true }).tag 5).completing = true := by decide +kernel

/-- The busy station with a BACKOFF tag of a lower segment than channel 1's next, and a notice of a channel in the queue.
-/
def laggard (origin : Fin 4) : State :=
  withNotice (.channel origin) 0 ((busy.setChannel 1 { busy.channel 1 with nextSegment := 2 }).setTag 4
    { busy.tag 4 with segment := 1 })

/-- A tag that ends with its channel, and notices of a channel at work and of one that is not. -/
theorem test_meets_LeaveInJoined_work :
    (laggard 1).station.state = .joined ∧ ((laggard 1).channel 1).state = .running ∧ (laggard 1).endsWith 1 4 ∧
      ((laggard 1).tag 4).segment < ((laggard 1).channel 1).nextSegment ∧
      (laggard 1).notices.queue[0]? = some ⟨0, 50, 0, .channel 1, 0⟩ ∧
      (laggard 3).notices.queue[0]? = some ⟨0, 50, 0, .channel 3, 0⟩ ∧ ((laggard 3).channel 3).state = .idle := by
  unfold State.endsWith
  decide +kernel

/-- R71, R72: at LEAVE a tag that is completing in BACKOFF keeps its state and its channel. -/
theorem test_leave_completing :
    let s := busy.setTag 5 { busy.tag 4 with completing := true }
    (after .leave s).tag 5 = s.tag 5 ∧ ((after .leave s).tag 4).owner = none := by decide +kernel

theorem test_meets_ListeningTimerExpiry :
    listening.station.state = .listening ∧ listening.station.listeningTimer ≠ .stopped := by decide +kernel

theorem test_meets_PresenceTimerExpiry :
    joined.station.state = .joined ∧ leaving.station.state = .leaving ∧ joined.station.presenceTimer ≠ .stopped ∧
      joined.station.farewellOffered = false ∧
      State.onTrunk { leaving with station := { leaving.station with farewellOffered := true } } = true := by decide +kernel

theorem test_meets_FarewellOffer :
    leaving.station.state = .leaving ∧ leaving.station.farewellOffered = false ∧
      (∀ c, (leaving.channel c).state = .idle ∨ (leaving.channel c).state = .halted) ∧ leaving.responder.queue = [] ∧
      leaving.trunk.replies = [] ∧ leaving.notices.queue = [] := by decide +kernel

/-- The events that make a presence, with a try on the line: of a presence still offered, of one replaced before, and of a
reply. -/
theorem test_meets_presence_made :
    ∀ x ∈ [(⟨.presence true, [1], .live, false⟩ : Try), ⟨.presence true, [1], .replaced, false⟩, ⟨.reply, [1], .live, false⟩],
      let at_ (s : State) : State := { s with trunk := { s.trunk with line := some x } }
      (at_ listening).station.state = .listening ∧ (at_ joined).station.presenceTimer ≠ .stopped ∧
        (at_ leaving).station.farewellOffered = false ∧ (at_ exporting).onTrunk = true ∧
        (at_ exporting).port.executing = none ∧ ((at_ exporting).window 6).state = .opened ∧
        ((at_ exporting).window 0).state = .closed ∧
        ((at_ joined).trunk.line.map Try.replaced).map Try.fate = some (if x.frame = .reply then .live else .replaced) := by
  decide +kernel

/-- Peers 1 and 40 PRESENT, with a tag of a channel towards station 7, PRESENT too, and a queued item of station 9. -/
def peered : State :=
  withPeer 6 4 (withPeer 8 0 (withPeer 39 0 (withPeer 0 0 (withTag 4 .sent .read 1 (running 1 readEntry
    (executing .claimRead .claim))))))

/-- Tags of channel 1 towards station 7 in QUEUED, with a try on the line and with none, SENT, BACKOFF, and completing. -/
def reaching (op : Operation) (e : Entry) : State :=
  let tag : Tag := { Tag.reset with
    state := .queued, owner := some 1, target := 7, operation := op, attempts := 1, timer := .running 20 }
  ((((((running 1 e peered).setTag 2 tag).setTag 3 { tag with onLine := true }).setTag 4 { tag with state := .sent }).setTag 5
    { tag with state := .backoff }).setTag 6 { tag with state := .sent, completing := true }).setTag 7 { tag with target := 8 }

/-- The tags that a lost peer reaches, and those that it does not, of a channel of each disposition. -/
theorem test_meets_lost_peer :
    ∀ p ∈ [(readEntry, Operation.read), (claimEntry, .claim), (writeEntry, .write)],
      let s := reaching p.2 p.1
      let reached (k : Fin 16) : Prop :=
        ((s.tag k).state = .queued ∨ (s.tag k).state = .sent ∨ (s.tag k).state = .backoff) ∧
          (s.tag k).completing = false ∧ (s.tag k).target = (6 : Fin 40).val + 1
      (s.peer 6).present = true ∧ (s.peer 6).silence ≠ .stopped ∧ (∀ k, k ∈ [(2 : Fin 16), 3, 4, 5] ↔ reached k) ∧
        (∀ k ∈ [(2 : Fin 16), 3, 4, 5], (s.tag k).owner = some 1) ∧ (s.channel 1).state = .running := by decide +kernel

/-- R66, R70, R79, R81: a READ under PERSIST is retried after PEER_LOST, its request unanswered once it has been on the
line; a CLAIM halts with UNCERTAIN. -/
theorem test_silence_tags :
    let read := after (.silenceTimerExpiry 7) (reaching .read readEntry)
    let claim := after (.silenceTimerExpiry 7) (reaching .claim claimEntry)
    [2, 3, 4, 5, 6, 7].map (fun k => ((read.tag k).state, (read.tag k).lastOutcome, (read.tag k).unanswered)) =
        [(.backoff, some .peerLost, false), (.backoff, some .peerLost, true), (.backoff, some .peerLost, true),
          (.backoff, some .peerLost, false), (.sent, none, false), (.queued, none, false)] ∧
      (claim.channel 1).haltError = some .uncertain ∧ (claim.channel 1).haltDetail = ⟨some 7, some 0x0B, none⟩ := by
  decide +kernel

theorem test_meets_SilenceTimerExpiry :
    (∀ i ∈ [(0 : Fin 40), 6, 8, 39], (peered.peer i).present = true ∧ (peered.peer i).silence ≠ .stopped) ∧
      (∃ item ∈ peered.responder.queue, item.source = (8 : Fin 40).val + 1) ∧
      (peered.tag 4).owner ≠ none ∧ (peered.tag 4).target = (6 : Fin 40).val + 1 := by decide +kernel

/-- A presence of station 7 with given incarnation and flags. -/
def presenceBytes (source incarnation flags : Byte) : List Byte :=
  frameBytes [0x04, 0x00, source, incarnation, flags, 0x0A, 0x04, 0x00, 0x00, 0x00] []

/-- For each clause a presence and a roster that meet it: leaving and ordinary from an ABSENT station; leaving, fresh,
with another incarnation, and unchanged from a PRESENT one. The entry's incarnation is 1. -/
theorem test_meets_PresenceArrival :
    (∀ f ∈ [presence7, presenceBytes 7 1 0, presenceBytes 7 1 1, presenceBytes 7 2 0, presenceBytes 7 1 2],
      receiveChecks f = true ∧ kindOf f = some .presence ∧ sourceOf f = (6 : Fin 40).val + 1 ∧
        sourceOf f ≠ joined.ownAddress) ∧
      (∀ f ∈ [presenceBytes 1 1 0, presenceBytes 40 1 0], receiveChecks f = true) ∧
      joined.trunk.line = none ∧ listening.station.state = .listening ∧ joined.station.state = .joined ∧
      leaving.station.state = .leaving ∧ (joined.peer 6).present = false ∧ ((withPeer 6 4 joined).peer 6).present = true ∧
      ((withPeer 6 4 joined).peer 6).incarnation = 1 ∧
      (presenceOf (presenceBytes 7 1 2)).leaving = true ∧ (presenceOf presence7).leaving = false ∧
      (presenceOf (presenceBytes 7 1 1)).fresh = true ∧ (presenceOf (presenceBytes 7 1 0)).fresh = false ∧
      (presenceOf (presenceBytes 7 1 0)).incarnation = 1 ∧ (presenceOf (presenceBytes 7 2 0)).incarnation ≠ 1 := by
  decide +kernel

/-- Stations whose roster takes no presence. -/
theorem test_meets_PresenceArrival_discarded :
    (∀ s ∈ [ready, inState .excluded ready], (s.station.state = .offline ∨ s.station.state = .excluded) ∧
      s.trunk.line = none ∧ sourceOf presence7 ≠ s.ownAddress) ∧
      ready.StationSound ∧ (inState .excluded ready).StationSound := by
  unfold State.StationSound
  refine ⟨by decide +kernel, ⟨by decide +kernel, by decide +kernel, ?_⟩, by decide +kernel, by decide +kernel, ?_⟩ <;>
  · intro p h
    cases h

/-- The busy station, and the executing one, hear their own address; a try of the busy one ends with another's frame
under its own address, its frame live with each number of tries, withdrawn, and replaced. -/
theorem test_meets_Exclusion :
    State.MeetsConflict busy (.receiveFrame ⟨ownPresence, .mbit3, false⟩) ∧
      State.MeetsConflict (executing .claimRead .claim) (.receiveFrame ⟨ownPresence, .mbit3, false⟩) ∧
      State.MeetsConflict listening (.receiveFrame ⟨ownPresence, .mbit3, false⟩) ∧
      State.MeetsConflict (inState .excluded ready) (.receiveFrame ⟨ownPresence, .mbit3, false⟩) ∧
      (∀ n : Fin 5, State.MeetsConflict (onLine (.request 4) [1] (busy.setTag 4 { busy.tag 4 with tries := n.val }))
        (.tryEnd ownPresence)) ∧
      (∀ fate, State.MeetsConflict { busy with trunk := { busy.trunk with line := some ⟨.request 4, [1], fate, false⟩ } }
        (.tryEnd ownPresence)) ∧
      (∀ fate, State.MeetsConflict { busy with trunk := { busy.trunk with line := some ⟨.presence true, [1], fate, false⟩ } }
        (.tryEnd ownPresence)) := by
  unfold State.MeetsConflict
  exact ⟨by decide +kernel, by decide +kernel, by decide +kernel, by decide +kernel,
    fun n => ⟨.request 4, [1], .live, rfl, by decide +kernel, by decide +kernel, rfl⟩,
    fun fate => ⟨.request 4, [1], fate, rfl, by decide +kernel, by decide +kernel, rfl⟩,
    fun fate => ⟨.presence true, [1], fate, rfl, by decide +kernel, by decide +kernel, rfl⟩⟩

/-- A live frame of each class at its fourth try, in JOINED; a join fails, and an OFFLINE station is not affected, with a
request at its fourth try. -/
theorem test_meets_Exclusion_fourth_try :
    (busy.setTag 4 { busy.tag 4 with tries := 3 }).triesOf (.request 4) < 4 ∧
      4 ≤ (busy.setTag 4 { busy.tag 4 with tries := 4 }).triesOf (.request 4) ∧
      4 ≤ (withReplies [queuedReply 4] joined).triesOf .reply ∧
      (∀ leaving ∈ [false, true], 4 ≤ (withPending { pendingPresence true leaving with tries := 4 } joined).triesOf
        (.presence true)) ∧
      (∀ origin ∈ [Origin.host, .detached, .channel 1], 4 ≤ (withNotice origin 4 busy).triesOf (.notice 0 ⟨3, 50, 0⟩) ∧
        (withNotice origin 4 busy).notices.queue = [⟨0, 50, 0, origin, 4⟩]) ∧
      (∀ st ∈ [StationState.joined, .leaving, .listening, .offline, .excluded],
        ((inState st busy).setTag 4 { busy.tag 4 with tries := 4 }).station.state = st) := by decide +kernel

/-- The states and channels that an exclusion reaches. -/
theorem test_meets_Exclusion_states :
    busy.station.state = .joined ∧ (inState .leaving busy).station.state = .leaving ∧ listening.station.state = .listening ∧
      ready.station.state = .offline ∧ (inState .excluded ready).station.state = .excluded ∧
      (busy.channel 0).pausedAtTolerated = true ∧ (busy.channel 1).pausedAtTolerated = false ∧
      (busy.tag 4).owned = true ∧ (busy.tag 4).owner = some 1 ∧
      ((busy.setChannel 3 { Channel.reset with state := .failing }).channel 3).state = .failing ∧
      ((busy.setChannel 3 { Channel.reset with state := .stopping }).channel 3).state = .stopping ∧
      (busy.channel 3).state = .idle ∧ busy.responder.execution = none ∧
      (executing .claimRead .claim).station.state = .joined ∧
      (executing .claimRead .claim).responder.execution = some ⟨.claimRead, false⟩ ∧
      (executing .claimRead .claim).responder.queue = [item9 .claim] := by decide +kernel

/-- A sweep's tag that is outstanding, of a RUNNING channel and of a FAILING one with its resume segment. -/
theorem test_meets_Exclusion_sweep :
    let sweeping := (running 1 sweepEntry busy).setTag 4 { busy.tag 4 with sweep := true, segment := 1 }
    let failing := sweeping.setChannel 1 { sweeping.channel 1 with state := .failing, resumeSegment := some 1 }
    (∀ s ∈ [sweeping, failing], (s.tag 4).owned = true ∧ (s.tag 4).owner = some 1 ∧ (s.tag 4).sweep = true ∧
      ∀ j : Fin 16, j < 4 → (s.tag j).owned = false) ∧
      (sweeping.channel 1).state = .running ∧ (failing.channel 1).resumeSegment = some 1 ∧
      (sweeping.channel 2).state = .waiting ∧ ∀ k : Fin 16, (sweeping.tag k).owner ≠ some 2 := by decide +kernel

/-- R166, R168, R169, R174: the pointer moves past the tag of a request withdrawn, and is kept else; a request at its
fourth try is abandoned and counted before the exclusion, and the pointer moves past its tag. -/
theorem test_tryEnd_conflict :
    let line (fate : TryFate) : State := { busy with trunk := { busy.trunk with line := some ⟨.request 4, [1], fate, false⟩ } }
    let fourth := after (.tryEnd ownPresence) (onLine (.request 4) [1] (busy.setTag 4 { busy.tag 4 with tries := 4 }))
    fourth.counters.abandonedFrames = 1 ∧ fourth.trunk.pointer = 5 ∧ fourth.station.state = .excluded ∧
      (fourth.tag 4).lastOutcome = some .link ∧
      (after (.tryEnd ownPresence) (line .withdrawn)).trunk.pointer = 5 ∧
      (after (.tryEnd ownPresence) (line .live)).trunk.pointer = 0 ∧
      (after (.receiveFrame ⟨ownPresence, .mbit3, false⟩) busy).trunk.pointer = 0 := by decide +kernel

/-- The arguments of WINDOW_SET at the ends of their ranges: the first two in range, the others out of it. -/
theorem test_meets_WindowSetEffect :
    joined.port.executing = none ∧
      [(#v[0x00000020, 0, 3, 0] : Arguments), #v[0xFFFFFFEF, 0xFFFFFFFC, 0xFFFFFFFC, 0xFFFFFFFF], #v[0x00000030, 0, 0, 0],
        #v[0x0000000F, 0, 0, 0], #v[0x00000020, 1, 0, 0], #v[0x000000A0, 0, 2, 0]].map (fun a =>
          decide (15 < field a[0] 0 5 ∨ field a[0] 5 2 = 0 ∨ field a[1] 0 2 ≠ 0 ∨
            (bit a[0] 7 = true ∧ field a[2] 0 2 ≠ 0))) = [false, false, true, true, true, true] ∧
      field (0x00000020 : Word) 0 5 = (0 : Fin 16).val ∧ field (0xFFFFFFEF : Word) 0 5 = (15 : Fin 16).val ∧
      (exporting.window 6).state ≠ .closed ∧ (exporting.window 0).state = .closed ∧ (exporting.window 0).events = [] ∧
      ((exporting.setWindow 0 { Window.reset with events := [.windowClosed 0] }).window 0).events ≠ [] ∧
      joined.onTrunk = true ∧ joined.station.farewellOffered = false ∧ ready.onTrunk = false ∧
      State.onTrunk { leaving with station := { leaving.station with farewellOffered := true } } = true := by decide +kernel

/-- Window 6 in the states and with the marks of its commands. -/
theorem test_meets_HoldReleaseFlip :
    let n (a : Word) := field a 0 8
    joined.port.executing = none ∧ 15 < n 16 ∧ n 0 = (0 : Fin 16).val ∧ n 15 = (15 : Fin 16).val ∧
      (joined.window 6).state ≠ .opened ∧ (exporting.window 6).state = .opened ∧ (exporting.window 6).state ≠ .held ∧
      ({ window6 with state := .held, holdPending := true } : Window).advertised = true ∧
      window6.holdPending = false ∧ window6.paired = false ∧ (joined.window 6).advertised = false ∧
      ({ window6 with paired := true, flipPending := true } : Window).advertised = true ∧
      ({ window6 with paired := true } : Window).flipPending = false := by decide +kernel

theorem test_meets_CloseEffect :
    (withArgs 6 0 0 0 exporting).port.executing = none ∧ field (withArgs 6 0 0 0 exporting).port.arguments[0] 0 8 = (6 : Fin 16).val ∧
      (joined.window 6).state = .closed ∧ ((exporting.setWindow 6 { window6 with state := .closing }).window 6).state = .closing ∧
      (exporting.window 6).state = .opened ∧ ((exporting.setWindow 6 { window6 with state := .held }).window 6).state = .held ∧
      exporting.onTrunk = true ∧ exporting.station.farewellOffered = false ∧
      (inState .offline exporting).onTrunk = false := by decide +kernel

/-- The arguments of BOOK at the ends of their ranges: the first two in range, the others out of it. -/
theorem test_meets_BookEffect :
    joined.port.executing = none ∧
      [(#v[0x10010000, 0, 0, 0] : Arguments), #v[0x27FF280F, 0x03FF0003, 0, 0], #v[0x10010010, 0, 0, 0],
        #v[0x10012900, 0, 0, 0], #v[0x10000000, 0, 0, 0], #v[0x12010000, 4, 0, 0], #v[0x12010000, 0x04000000, 0, 0],
        #v[0x00010000, 0, 0, 0], #v[0x30010000, 0, 0, 0]].map (fun a =>
          decide (15 < field a[0] 0 8 ∨ 40 < field a[0] 8 8 ∨ field a[0] 16 8 = 0 ∨
            (bit a[0] 25 = true ∧ (3 < field a[1] 0 8 ∨ 1023 < field a[1] 16 16)) ∨
            (field a[0] 28 2 ≠ 1 ∧ field a[0] 28 2 ≠ 2))) = [false, false, true, true, true, true, true, true, true] ∧
      field (0x10010000 : Word) 0 8 = (0 : Fin 16).val ∧ field (0x27FF280F : Word) 0 8 = (15 : Fin 16).val ∧
      (∃ c, ((waiting waitEntry).channel c).state = .waiting ∧ ((waiting waitEntry).channel c).waitBooking = some 3) ∧
      ¬ ∃ c, (joined.channel c).state = .waiting := by decide +kernel

theorem test_meets_UnbookEffect :
    joined.port.executing = none ∧ 15 < field (0x110 : Word) 0 8 ∧ field (0x300 : Word) 8 8 ≠ 1 ∧ field (0x300 : Word) 8 8 ≠ 2 ∧
      field (0x10F : Word) 0 8 = (15 : Fin 16).val ∧ field (0x10F : Word) 8 8 = 1 ∧
      field (0x203 : Word) 0 8 = (3 : Fin 16).val ∧ field (0x203 : Word) 8 8 = 2 ∧
      (joined.booking 3).matchCount < 65536 ∧
      (∃ c, ((waiting waitEntry).channel c).state = .waiting ∧ ((waiting waitEntry).channel c).waitBooking = some 3) ∧
      ¬ ∃ c, (joined.channel c).state = .waiting := by decide +kernel

/-- A notice queue with some number of host frames. -/
def withNotices (n : Nat) (s : State) : State :=
  { s with notices := { s.notices with queue := List.replicate n ⟨0, 50, 0, .host, 1⟩ } }

theorem test_meets_NoticeCommandEffect :
    joined.port.executing = none ∧ 40 < field (0x129 : Word) 0 8 ∧ field (0x028 : Word) 8 8 = 0 ∧
      field (0x128 : Word) 0 8 ≤ 40 ∧ field (0x128 : Word) 8 8 ≠ 0 ∧ leaving.station.state ≠ .joined ∧
      joined.station.state = .joined ∧ 4 ≤ (withNotices 4 joined).notices.queue.length ∧
      (withNotices 3 joined).notices.queue.length < 4 := by decide +kernel

/-- The four classes of frame are offered in turn, keys of other stations above and below the own ones stand by, and a
slot is without offer when no request is queued or the yield flag is set. Tag 4 is chosen with its try failed, though tag
2 lies before it, and with no try failed, as the first from the pointer. -/
theorem test_meets_ContentionSlotEffect :
    let kept := (withTag 4 .queued .read 1 joined).setTag 2 { (withTag 2 .queued .read 1 joined).tag 2 with tries := 0 }
    let first := joined.setTag 4 { (withTag 4 .queued .read 1 joined).tag 4 with tries := 0 }
    joined.trunk.line = none ∧ joined.onTrunk = true ∧ joined.ownAddress = 3 ∧
      (withReplies [queuedReply 0] joined).trunk.replies = [queuedReply 0] ∧ joined.trunk.replies = [] ∧
      (withPending (pendingPresence true false) joined).station.pending = some (pendingPresence true false) ∧
      joined.station.pending = none ∧ (withNotices 1 joined).notices.queue ≠ [] ∧ joined.notices.queue = [] ∧
      joined.trunk.yielding = false ∧ (kept.tag 4).onOffer = true ∧ 0 < (kept.tag 4).tries ∧
      (∀ j : Fin 16, (j - kept.trunk.pointer).val < ((4 : Fin 16) - kept.trunk.pointer).val →
        (kept.tag j).onOffer = true → (kept.tag j).tries = 0) ∧
      (first.tag 4).onOffer = true ∧ (∀ j, (first.tag j).onOffer = true → (first.tag j).tries = 0) ∧
      (∀ j : Fin 16, (j - first.trunk.pointer).val < ((4 : Fin 16) - first.trunk.pointer).val →
        (first.tag j).onOffer = false) ∧
      (∀ k, (joined.tag k).onOffer = false) ∧
      (∀ cls : Fin 4, (64 * cls.val + 3 ≤ (BitVec.ofNat 8 (64 * cls.val + 4)).toNat) ∧
        ¬ 64 * cls.val + 3 ≤ (BitVec.ofNat 8 (64 * cls.val + 2)).toNat) := by decide +kernel

/-- Two segments of one WRITE, the later one first from the pointer. -/
theorem test_meets_ContentionSlotEffect_segments :
    crossed.trunk.line = none ∧ crossed.onTrunk = true ∧ crossed.trunk.replies = [] ∧ crossed.station.pending = none ∧
      crossed.notices.queue = [] ∧ crossed.trunk.yielding = false ∧
      (∀ k ∈ [(2 : Fin 16), 4], (crossed.tag k).state = .queued ∧ (crossed.tag k).completing = false ∧
        (crossed.tag k).operation = .write ∧ (crossed.tag k).owner = some 0 ∧ (crossed.tag k).attempts = 1 ∧
        (crossed.tag k).tries = 0) ∧
      (crossed.tag 4).segment < (crossed.tag 2).segment ∧ crossed.trunk.pointer = 0 ∧
      (∀ j : Fin 16, j ≠ 2 → j ≠ 4 → (crossed.tag j).state = .free) := by decide +kernel

/-- Channel 1 RUNNING at a NOTICE, whose frame is in the queue. -/
def noticing (e : Entry) (tries : Nat) : State :=
  withNotice (.channel 1) tries (joined.setChannel 1 { Channel.reset with
    state := .running, captured := e, noticeWait := .echo })

/-- A try of each class, of a notice of each origin, withdrawn and replaced. -/
theorem test_meets_TryEndComplete :
    (∀ f ∈ [TryFrame.request 4, .reply, .presence true, .notice 0 ⟨3, 50, 0⟩],
      (onLine f [1] joined).trunk.line = some ⟨f, [1], .live, false⟩ ∧
        (∀ fate ∈ [TryFate.withdrawn, .replaced],
          ({ joined with trunk := { joined.trunk with line := some ⟨f, [1], fate, false⟩ } } : State).trunk.line =
            some ⟨f, [1], fate, false⟩)) ∧
      (withPending (pendingPresence true false) joined).station.pending = some (pendingPresence true false) ∧
      (pendingPresence true false).leaving = false ∧ (pendingPresence false true).leaving = true ∧
      (∀ origin ∈ [Origin.host, .detached], (withNotice origin 1 joined).notices.queue = [⟨0, 50, 0, origin, 1⟩]) ∧
      (noticing noticeEntry 1).notices.queue = [⟨0, 50, 0, .channel 1, 1⟩] ∧
      ((noticing noticeEntry 1).channel 1).state = .running ∧ ((noticing noticeEntry 1).channel 1).noticeWait = .echo := by
  decide +kernel

/-- NOTICE to all, code 50, argument 0x1234, TOLERANT. -/
def noticeTolerant : Entry := ⟨0x15, 0x12343200, 0, 0⟩

/-- A request of channel 1 at an entry, with some tries, its attempt the first of its tag 4. -/
def requesting (tries : Nat) (op : Operation) (e : Entry) : State :=
  (running 1 e joined).setTag 4 { Tag.reset with
    state := .queued, owner := some 1, tries := tries, target := 7, attempts := 1, operation := op, sweep := e.isSweep
    header := if e.isSweep then some 0x1000 else none }

/-- The tries before the fourth and at it, of a frame of each class, with an echo cut short and one of another station. -/
theorem test_meets_TryEndFailed :
    ([] : List Byte) ≠ [1] ∧ checkGood [] = false ∧ checkGood presence7 = true ∧ sourceOf presence7 ≠ joined.ownAddress ∧
      (requesting 3 .read readEntry).triesOf (.request 4) < 4 ∧ 4 ≤ (requesting 4 .read readEntry).triesOf (.request 4) ∧
      4 ≤ (withReplies [queuedReply 4] joined).triesOf .reply ∧
      (∀ leaving ∈ [false, true], 4 ≤ (withPending { pendingPresence true leaving with tries := 4 } joined).triesOf
        (.presence true)) ∧
      (∀ origin ∈ [Origin.host, .detached], 4 ≤ (withNotice origin 4 joined).triesOf (.notice 0 ⟨3, 50, 0⟩) ∧
        (withNotice origin 4 joined).notices.queue = [⟨0, 50, 0, origin, 4⟩]) ∧
      (∀ e ∈ [noticeEntry, noticeTolerant], 4 ≤ (noticing e 4).triesOf (.notice 0 ⟨3, 50, 0⟩) ∧
        ((noticing e 4).channel 1).state = .running ∧ ((noticing e 4).channel 1).noticeWait = .echo ∧
        ((noticing e 4).channel 1).captured = e) ∧
      noticeTolerant.disposition = some .tolerant ∧ noticeEntry.disposition ≠ some .tolerant := by decide +kernel

/-- Requests at their fourth try, of a channel in every state that owns one and of none: STRICT, TOLERANT with a segment
left and with none, PERSIST below and at the limit, each as a READ or WRITE and as a CLAIM, and SWEEP as a READ and as a
WRITE_IMMEDIATE. -/
theorem test_meets_TryEndFailed_requests :
    (∀ p ∈ [((⟨0x02070081, 0x00280000, 0x1000, 0⟩ : Entry), Operation.read), (⟨0x02070004, 0, 0, 10⟩, .claim),
        (⟨0x02070091, 0x00280000, 0x1000, 0⟩, .read), (⟨0x02070013, 0x00010000, 0, 0⟩, .write), (readEntry, .read),
        (⟨0x020701A1, 0x00280000, 0x1000, 0⟩, .read), (claimEntry, .claim), (⟨0x02070124, 0, 0, 10⟩, .claim),
        (sweepEntry, .read), (⟨0x02010033, 0x00010000, 7, 0⟩, .write)],
      let s := requesting 4 p.2 p.1
      4 ≤ s.triesOf (.request 4) ∧ (s.tag 4).owner = some 1 ∧ (s.channel 1).state = .running ∧
        (s.tag 4).sweep = p.1.isSweep ∧ (s.tag 4).operation = p.2) ∧
      Entry.disposition ⟨0x02070081, 0x00280000, 0x1000, 0⟩ = some .strict ∧
      Entry.disposition ⟨0x02070004, 0, 0, 10⟩ = some .strict ∧
      Entry.disposition ⟨0x02070091, 0x00280000, 0x1000, 0⟩ = some .tolerant ∧
      0 + 1 < Entry.segments ⟨0x02070091, 0x00280000, 0x1000, 0⟩ ∧
      Entry.disposition ⟨0x02070013, 0x00010000, 0, 0⟩ = some .tolerant ∧
      Entry.segments ⟨0x02070013, 0x00010000, 0, 0⟩ ≤ 0 + 1 ∧
      (∀ st ∈ [ChannelState.running, .stopping, .failing], ∀ owner ∈ [some (1 : Fin 4), none],
        let s := requesting 4 .read readEntry
        let s := (s.setChannel 1 { s.channel 1 with state := st }).setTag 4 { s.tag 4 with owner := owner }
        4 ≤ s.triesOf (.request 4) ∧ (s.tag 4).owner = owner ∧ (s.channel 1).state = st) ∧
      (∀ e ∈ [readEntry, claimEntry], e.disposition = some .persist ∧ 1 < e.limit) ∧
      (∀ e ∈ [(⟨0x020701A1, 0x00280000, 0x1000, 0⟩ : Entry), ⟨0x02070124, 0, 0, 10⟩],
        e.disposition = some .persist ∧ e.limit ≤ 1) ∧
      sweepEntry.isSweep = true ∧ ((requesting 4 .read sweepEntry).tag 4).header = some 0x1000 := by decide +kernel

/-- Station 3 with bookings 0 and 1, an own notice heard waiting, and one on the line. -/
def booked : State :=
  { joined.setBooking 0 (booking50 true false false) with
    notices := { (joined.setBooking 0 (booking50 true false false)).notices with ownEchoes := [⟨3, 50, 7⟩] } }

theorem test_meets_NoticeEvaluation :
    booked.onTrunk = true ∧ booked.notices.ownEchoes = [⟨3, 50, 7⟩] ∧ (booked.booking 0).matchesArrival ⟨3, 50, 7⟩ = true ∧
      (booked.booking 1).matchesArrival ⟨3, 50, 7⟩ = false ∧ joined.notices.ownEchoes = [] ∧
      (onLine (.notice 0 ⟨3, 50, 7⟩) [1] joined).trunk.line = some ⟨.notice 0 ⟨3, 50, 7⟩, [1], .live, false⟩ ∧
      booked.trunk.line = none ∧ receiveChecks notice9 = true ∧ kindOf notice9 = some .notice ∧
      noticeOf notice9 = ⟨9, 50, 0x1234⟩ ∧ sourceOf notice9 ≠ booked.ownAddress ∧ destinationOf notice9 = 0 ∧
      booked.ownAddress ≤ 40 := by
  decide +kernel

/-- Stations that discard a notice, from the trunk, waiting to be heard, and on the line. -/
theorem test_meets_NoticeEvaluation_discarded :
    ∀ st ∈ [StationState.offline, .listening, .excluded],
      (inState st booked).onTrunk = false ∧ (inState st booked).notices.ownEchoes = [⟨3, 50, 7⟩] ∧
        ((inState st booked).booking 0).matchesArrival ⟨3, 50, 7⟩ = true ∧ (inState st booked).trunk.line = none ∧
        (inState st (onLine (.notice 0 ⟨3, 50, 7⟩) [1] joined)).trunk.line =
          some ⟨.notice 0 ⟨3, 50, 7⟩, [1], .live, false⟩ ∧
        (inState st joined).notices.ownEchoes = [] ∧ (inState st joined).ownAddress = 3 := by decide +kernel

/-- Booking 3 alone matches: it starts channel 1, IDLE or at work, releases channel 0, which waits on it, or none, and
stays ARMED or is SPENT. -/
theorem test_meets_NoticeEvaluation_actions :
    (∀ b ∈ [booking50 true true false, booking50 false false true, { booking50 true true true with once := true }],
      ∀ s ∈ [joined, waiting waitEntry, running 1 readEntry joined],
        ((s.setBooking 3 b).booking 3).matchesArrival ⟨9, 50, 7⟩ = true ∧
          (∀ j, j ≠ 3 → ((s.setBooking 3 b).booking j).matchesArrival ⟨9, 50, 7⟩ = false) ∧
          (((s.setBooking 3 b).booking 3).start = true → ((s.setBooking 3 b).booking 3).startChannel < 4)) ∧
      (booking50 true true false).startChannel = (1 : Fin 4).val ∧ (joined.channel 1).state = .idle ∧
      ((running 1 readEntry joined).channel 1).state ≠ .idle ∧ joined.station.state = .joined ∧
      ((waiting waitEntry).channel 0).state = .waiting ∧ ((waiting waitEntry).channel 0).waitBooking = some 3 ∧
      (∀ c, (joined.channel c).state ≠ .waiting) := by decide +kernel

/-- Two channels WAITING on one booking in mode ONCE that matches, and one on another. -/
theorem test_meets_NoticeEvaluation_two_waiting :
    let s := ((waiting waitEntry).setChannel 2 ((waiting waitEntry).channel 0)).setBooking 3
      { booking50 false false true with once := true }
    let waits (c : Fin 4) : Prop := (s.channel c).state = .waiting ∧ (s.channel c).waitBooking = some 3
    s.onTrunk = true ∧ (s.booking 3).matchesArrival ⟨9, 50, 7⟩ = true ∧
      (∀ j, j ≠ 3 → (s.booking j).matchesArrival ⟨9, 50, 7⟩ = false) ∧ (s.booking 3).release = true ∧
      (s.booking 3).once = true ∧ (s.booking 3).start = false ∧
      (∀ c, c ∈ [(0 : Fin 4), 2] ↔ waits c) ∧ [(0 : Fin 4), 2].Pairwise (· < ·) ∧
      (s.channel 0).tolerated = 0 := by decide +kernel

theorem test_meets_NoticePosted :
    booked.onTrunk = true ∧ booked.notices.ownEchoes = [⟨3, 50, 7⟩] ∧
      (∀ n ∈ [(⟨3, 50, 7⟩ : NoticeArrival), noticeOf notice9], (booked.booking 0).matchesArrival n = true ∧
        ∀ j, j ≠ 0 → (booked.booking j).matchesArrival n = false) ∧
      (booked.booking 0).once = false ∧ (booked.booking 0).post = true ∧ (booked.booking 0).start = false ∧
      (booked.booking 0).release = false ∧ booked.writer.slots.length < 4 ∧ booked.trunk.line = none ∧
      receiveChecks notice9 = true ∧ kindOf notice9 = some .notice ∧ sourceOf notice9 ≠ booked.ownAddress ∧
      destinationOf notice9 = 0 := by decide +kernel

/-- A frame of some kind from station 9 to some destination. -/
def frame9 (kind destination : Byte) : List Byte :=
  frameBytes [kind, destination, 0x09, 0x15, 0x00, 0x06, 0x00, 0x00, 0x01, 0x00] []

/-- A frame at another rate, one in reception at a change of the rate (R163), one with a bad check, one of no kind with a
good check, from a PRESENT and from an ABSENT station, frames to another station, to station 41 at a strap that reads 41,
and replies that match no tag and that match tag 0 and do not fit it. -/
theorem test_meets_DroppedArrivals :
    let at41 : State := { joined with station := { joined.station with strap := 41 } }
    let misfit := withTag 0 .sent .read 1 (running 1 readEntry joined)
    joined.trunk.line = none ∧ Rate.mbit12 ≠ joined.station.config.rate ∧ Rate.mbit3 = joined.station.config.rate ∧
      checkGood [] = false ∧ checkGood kind5 = true ∧ receiveChecks kind5 = false ∧
      sourceOf kind5 = (6 : Fin 40).val + 1 ∧ ((withPeer 6 4 joined).peer 6).present = true ∧
      (∀ i : Fin 40, (joined.peer i).present = false) ∧
      (after (.receiveFrame ⟨presence7, .mbit3, true⟩) joined).counters.checkErrors = 1 ∧
      (∀ k ∈ [(0x01 : Byte), 0x02, 0x03], ∀ d ∈ [(0x04 : Byte), 0x28],
        receiveChecks (frame9 k d) = true ∧ sourceOf (frame9 k d) ≠ joined.ownAddress ∧
          destinationOf (frame9 k d) ≠ joined.ownAddress ∧ destinationOf (frame9 k d) ≠ 0) ∧
      receiveChecks (frame9 0x02 41) = true ∧ destinationOf (frame9 0x02 41) = at41.ownAddress ∧
      40 < destinationOf (frame9 0x02 41) ∧
      receiveChecks reply7 = true ∧ kindOf reply7 = some .reply ∧ sourceOf reply7 ≠ joined.ownAddress ∧
      destinationOf reply7 = joined.ownAddress ∧ joined.ownAddress ≤ 40 ∧
      (replyOf reply7).matchesTag (joined.tag (tagOf reply7)) = false ∧
      (replyOf reply7).matchesTag (misfit.tag (tagOf reply7)) = true ∧
      (replyOf reply7).fits (misfit.tag (tagOf reply7)) = false := by decide +kernel

/-- A request of station 9 to station 3 with tag 3, generation 0, count 1: operation, window and flags as given. -/
def request9 (op window flags : Byte) (payload : List Word) : List Byte :=
  frameBytes [0x01, 0x03, 0x09, 0x03 ||| flags, op, window, 0x04, 0x00, 0x01, 0x00] payload

/-- A READ of window 6 that meets each of the checks: the window CLOSED, the source barred, the range short by one word,
the window HELD, all reserved slots taken, and none of these with the range just enough. -/
theorem test_meets_RequestArrival :
    exporting.trunk.line = none ∧ receiveChecks read9 = true ∧ kindOf read9 = some .request ∧
      sourceOf read9 = (8 : Fin 40).val + 1 ∧ exporting.ownAddress ≤ 40 ∧
      sourceOf read9 ≠ exporting.ownAddress ∧ destinationOf read9 = exporting.ownAddress ∧
      (requestOf read9).operation ≠ .claim ∧ leaving.station.state = .leaving ∧ exporting.station.state = .joined ∧
      (inState .excluded exporting).onTrunk = false ∧
      (6 : Fin 16).val = (requestOf read9).window.toNat ∧ (joined.window 6).state = .closed ∧
      (exporting.window 6).state = .opened ∧ window6.permits 10 = false ∧ window6.permits (requestOf read9).source = true ∧
      window6.access ≠ .writeOnly ∧ (requestOf read9).count.toNat = 8 ∧
      11 < (requestOf read9).offset.toNat + (requestOf read9).count.toNat ∧
      ¬ 12 < (requestOf read9).offset.toNat + (requestOf read9).count.toNat ∧ exporting.reservedTaken < 8 ∧
      8 ≤ (withReplies (List.replicate 8 { queuedReply 0 with reserved := true }) exporting).reservedTaken ∧
      exporting.immediateTaken < 4 ∧ 4 ≤ (withReplies (List.replicate 4 (queuedReply 0)) exporting).immediateTaken := by
  decide +kernel

/-- Windows 15 and 16 of a request, a WRITE, and CLAIMs: new, which finds the memo of its source, and repeated, which is
answered from the memo, is still queued, or is neither. -/
theorem test_meets_RequestArrival_operations :
    (∀ f ∈ [request9 0 15 0 [], request9 0 16 0 [], request9 1 6 0 [5], request9 2 6 0 [0, 12], request9 2 6 0x20 [0, 12]],
      receiveChecks f = true ∧ kindOf f = some .request ∧ sourceOf f = (8 : Fin 40).val + 1 ∧
        destinationOf f = exporting.ownAddress) ∧
      (requestOf (request9 0 15 0 [])).window.toNat = (15 : Fin 16).val ∧
      15 < (requestOf (request9 0 16 0 [])).window.toNat ∧ (requestOf (request9 1 6 0 [5])).operation = .write ∧
      (requestOf (request9 2 6 0 [0, 12])).operation = .claim ∧ (requestOf (request9 2 6 0 [0, 12])).repeated = false ∧
      (requestOf (request9 2 6 0x20 [0, 12])).repeated = true ∧
      ((exporting.setMemo 8 (some ⟨3, false, 7, true⟩)).memo 8 = some ⟨3, false, 7, true⟩) ∧
      (requestOf (request9 2 6 0x20 [0, 12])).tag = 3 ∧ (requestOf (request9 2 6 0x20 [0, 12])).generation = false ∧
      (requestOf (request9 2 6 0x20 [0, 12])).inQueue [{ item9 .claim with tag := 3, generation := false }] = true ∧
      (requestOf (request9 2 6 0x20 [0, 12])).inQueue [item9 .claim] = false ∧
      window6.access = .readWrite ∧ window6.paired = false ∧ ({ window6 with paired := true } : Window).paired = true := by
  decide +kernel

/-- Entries that pass their checks, one of each kind, at the ends of START's ranges. -/
theorem test_meets_StartEffect :
    let a := joined
    a.port.executing = none ∧ 3 < field (4 : Word) 0 8 ∧ 1023 < field (0x04000000 : Word) 16 16 ∧
      field (0x03FF0003 : Word) 0 8 = (3 : Fin 4).val ∧ field (0x03FF0003 : Word) 16 16 ≤ 1023 ∧
      a.station.state = .joined ∧ leaving.station.state ≠ .joined ∧ (a.channel 3).state = .idle ∧
      (busy.channel 2).state ≠ .idle ∧ (busy.channel 2).state ≠ .halted ∧
      firstFailedCheck 3 none ⟨8, 0, 0, 0⟩ = some 1 ∧ firstFailedCheck 7 none readEntry = some 7 ∧
      (∀ e ∈ [Entry.zero, markEntry, noticeEntry, readEntry, claimEntry, writeEntry, sweepEntry, waitEntry, waitTolerant],
        firstFailedCheck 3 none e = none) ∧
      Entry.zero.kind = some .endList ∧ markEntry.kind = some .mark ∧ noticeEntry.kind = some .notice ∧
      readEntry.makesRequests = true ∧ waitEntry.kind = some .wait ∧ waitEntry.booking = (3 : Fin 16).val ∧
      waitEntry.timeout = 100 ∧ waitTolerant.disposition = some .tolerant ∧ waitEntry.disposition = some .strict ∧
      (booking50 true false false).state = .armed ∧ (booking50 true false false).latch = false ∧
      (joined.booking 3).state ≠ .armed ∧ (joined.booking 3).latch = false ∧
      ((joined.setBooking 3 { Booking.reset with latch := true }).booking 3).latch = true := by decide +kernel

/-- Channel 0 preparing a segment of an entry. -/
def preparing (e : Entry) (stage : PrepStage) : State :=
  (running 0 e joined).setChannel 0 { (running 0 e joined).channel 0 with preparation := some ⟨0, stage, false⟩ }

/-- Channel 1 of the busy station with a completion write of tag 6 that is not begun, and a notice in the queue. -/
def writingChannel : State :=
  withNotice (.channel 1) 0 ((busy.setTag 6 { busy.tag 4 with state := .sent, completing := true }).setChannel 1
    { busy.channel 1 with writes := [⟨some 6, 0, none, .writing [⟨0x8000, 0x8000, [5]⟩], false⟩] })

theorem test_meets_StopEffect :
    busy.port.executing = none ∧ 3 < field (4 : Word) 0 8 ∧ field (3 : Word) 0 8 = (3 : Fin 4).val ∧
      (busy.channel 3).state = .idle ∧ (busy.channel 1).state = .running ∧ (busy.channel 2).state = .waiting ∧
      ((busy.setChannel 3 { Channel.reset with state := .halted }).channel 3).state = .halted ∧
      ((busy.setChannel 3 { Channel.reset with state := .reporting }).channel 3).state = .reporting ∧
      (busy.tag 4).owner = some 1 ∧ (busy.tag 4).state = .backoff ∧ (busy.tag 4).completing = false ∧
      (writingChannel.channel 1).state = .running ∧
      (∃ w ∈ (writingChannel.channel 1).writes, w.begun = false ∧ w.tag = some 6) ∧
      (∃ n ∈ writingChannel.notices.queue, n.origin = .channel 1) := by decide +kernel

/-- A channel that is preparing: with its access begun, not begun, and with nothing being prepared. -/
theorem test_meets_StopEffect_preparation :
    let at_ (begun : Bool) : State := preparing readEntry (.fetching ⟨0, 16, []⟩ ⟨0x1000, 0x1000, 2, [], begun⟩)
    (∀ begun ∈ [true, false], ((at_ begun).channel 0).state = .running ∧ (at_ begun).port.executing = none ∧
      ((at_ begun).channel 0).preparation.map Preparation.begun = some begun) ∧
      ((running 0 readEntry joined).channel 0).preparation = none := by decide +kernel

/-- Channel 0 HALTED at 12.1's READ in its last segment. -/
def halted : State :=
  withEntry 0 readEntry (joined.setChannel 0 { Channel.reset with
    state := .halted, captured := readEntry, resumeSegment := some 2, haltError := some .timeout })

/-- Channel 0 HALTED at an entry of another kind. -/
def haltedAt (index : Nat) (unbegun : Bool) (e : Entry) : State :=
  withEntry 0 e (joined.setChannel 0 { Channel.reset with
    state := .halted, entryIndex := index, entryUnbegun := unbegun, captured := e, resumeSegment := some 0
    haltError := some .left })

theorem test_meets_ResumeEffect :
    halted.port.executing = none ∧ 3 < field (4 : Word) 0 8 ∧ field (0 : Word) 0 8 = (0 : Fin 4).val ∧
      (inState .offline halted).station.state ≠ .joined ∧ halted.station.state = .joined ∧
      (halted.channel 1).state = .idle ∧ (busy.channel 1).state ≠ .idle ∧ (busy.channel 1).state ≠ .halted ∧
      (halted.channel 0).state = .halted ∧ (halted.channel 0).entryUnbegun = false ∧ (halted.channel 0).entryIndex < 1024 ∧
      (halted.channel 0).resumeSegment = some 2 ∧
      firstFailedCheck halted.ownAddress (some ⟨(halted.channel 0).captured, 2⟩) (halted.entry (halted.channel 0).entryIndex) = none ∧
      (halted.entry 0).makesRequests = true ∧ 2 < (halted.entry 0).segments ∧
      firstFailedCheck halted.ownAddress (some ⟨readEntry, 2⟩) claimEntry = some 14 ∧
      (∀ e ∈ [markEntry, noticeEntry, waitEntry, waitTolerant, Entry.zero, sweepEntry],
        ((haltedAt 0 false e).channel 0).state = .halted ∧ (haltedAt 0 false e).entry 0 = e ∧
          firstFailedCheck joined.ownAddress (some ⟨e, 0⟩) e = none) ∧
      ((haltedAt 5 true markEntry).channel 0).entryUnbegun = true ∧
      1024 ≤ ((haltedAt 1024 false markEntry).channel 0).entryIndex := by decide +kernel

/-- A WRITE_IMMEDIATE and a CLAIM HALTED after their only segment was done: they pass their checks at segment 1. -/
theorem test_meets_ResumeEffect_resolved :
    ∀ e ∈ [writeEntry, claimEntry],
      let s := (haltedAt 0 false e).setChannel 0 { (haltedAt 0 false e).channel 0 with resumeSegment := some 1 }
      s.station.state = .joined ∧ (s.channel 0).state = .halted ∧ (s.channel 0).entryUnbegun = false ∧
        (s.channel 0).resumeSegment = some 1 ∧ s.entry 0 = e ∧ e.makesRequests = true ∧ e.isSweep = false ∧
        e.segments ≤ 1 ∧ firstFailedCheck s.ownAddress (some ⟨e, 1⟩) e = none := by decide +kernel

theorem test_meets_WaitTimerExpiry :
    ((waiting waitEntry).channel 0).state = .waiting ∧ ((waiting waitEntry).channel 0).waitTimer ≠ .stopped ∧
      ((waiting waitEntry).channel 0).waitBooking = some 3 ∧
      ((waiting waitEntry).channel 0).captured.disposition ≠ some .tolerant ∧
      ((waiting waitTolerant).channel 0).captured.disposition = some .tolerant := by decide +kernel

theorem test_meets_ChannelEnterReporting :
    let s (st : ChannelState) := joined.setChannel 1 { Channel.reset with state := st, resumeSegment := some 1 }
    (∀ k, ((s .stopping).tag k).owned = true → ((s .stopping).tag k).owner ≠ some 1) ∧
      ((s .stopping).channel 1).preparation = none ∧ ((s .stopping).channel 1).writes = [] ∧
      ((s .stopping).channel 1).heldSlot = none ∧ ((s .stopping).channel 1).state = .stopping ∧
      ((s .failing).channel 1).state = .failing ∧ ((s .failing).channel 1).resumeSegment = some 1 := by decide +kernel

/-- Channels about to prepare a CLAIM, a READ whose walk has not begun, and a sweep with and without a qualifying peer. -/
theorem test_meets_PrepareSegment :
    (∀ e ∈ [claimEntry, writeEntry, readEntry, sweepEntry],
      let s := running 0 e (withPeer 6 4 joined)
      (s.channel 0).state = .running ∧ (s.channel 0).heldSlot = none ∧ (s.channel 0).preparation = none ∧
        (s.channel 0).prepared = none ∧ e.makesRequests = true ∧ s.outstanding 0 < e.limitOutstanding ∧
        (e.isSweep = true ∨ (s.channel 0).nextSegment < e.segments) ∧ (s.channel 0).walk = none) ∧
      claimEntry.usesChain = false ∧ readEntry.usesChain = true ∧ readEntry.isSweep = false ∧ sweepEntry.isSweep = true ∧
      (∃ i : Fin 40, 1 ≤ i.val + 1 ∧ i.val + 1 ≠ joined.ownAddress ∧ ((withPeer 6 4 joined).peer i).present = true ∧
        ((withPeer 6 4 joined).peer i).mask.getLsbD sweepEntry.window = true) ∧
      ¬ ∃ i : Fin 40, (joined.peer i).present = true := by decide +kernel

/-- Channels whose walk has begun: for a READ, a WRITE and the record's header of a sweep, the region in use holds the
words wanted, ends before them with a descriptor to come, and ends before them as the chain's last. -/
theorem test_meets_PrepareSegment_walk :
    (∀ e ∈ [readEntry, ⟨0x02070082, 0x00280000, 0x1000, 0⟩, sweepEntry],
      ∀ w ∈ [(⟨0x1000, 0x8000, 16, false, 0, 0⟩ : Walk), ⟨0x1000, 0x8000, 8, false, 0, 0⟩, ⟨0x1000, 0x8000, 8, true, 0, 0⟩],
        let s := (running 0 e (withPeer 6 4 joined)).setChannel 0 { (running 0 e joined).channel 0 with walk := some w }
        (s.channel 0).state = .running ∧ (s.channel 0).walk = some w ∧ e.usesChain = true ∧
          (s.channel 0).captured = e ∧ (s.channel 0).preparation = none ∧ (s.channel 0).prepared = none) ∧
      WalkGoesOn 0x1000 (some ⟨0x1000, 0x8000, 16, false, 0, 0⟩) ⟨0, 16, []⟩
        (some ⟨0x1000, 0x8000, 16, false, 0, 16⟩, ⟨16, 0, [⟨0x8000, 16⟩]⟩, .placed) ∧
      WalkGoesOn 0x1000 (some ⟨0x1000, 0x8000, 8, false, 0, 0⟩) ⟨0, 16, []⟩
        (some ⟨0x1000, 0x8000, 8, false, 0, 8⟩, ⟨8, 8, [⟨0x8000, 8⟩]⟩, .fetch 0x1008) ∧
      WalkGoesOn 0x1000 (some ⟨0x1000, 0x8000, 8, true, 0, 0⟩) ⟨0, 16, []⟩
        (some ⟨0x1000, 0x8000, 8, true, 0, 8⟩, ⟨8, 8, [⟨0x8000, 8⟩]⟩, .short 8) := by
  refine ⟨by decide +kernel, ?_, ?_, ?_⟩ <;>
    exact ⟨fun h => (Option.some_ne_none _ h).elim, fun w h => by cases h; decide +kernel⟩

/-- A sweep without a qualifying peer that has nothing to report, and one that has tolerated a segment. -/
theorem test_meets_PrepareSegment_sweep_ends :
    (∀ i, ¬ ((running 0 sweepEntry joined).peer i).present = true) ∧
      ((running 0 sweepEntry joined).channel 0).tolerated = 0 ∧
      0 < (((running 0 sweepEntry joined).setChannel 0 { (running 0 sweepEntry joined).channel 0 with
        tolerated := 1, lastTolerated := some .timeout }).channel 0).tolerated := by decide +kernel

/-- Channels with a prepared segment towards a PRESENT and an ABSENT station, of each kind and disposition. -/
theorem test_meets_TagGrant :
    (∀ e ∈ [readEntry, ⟨0x02070082, 0x00280000, 0x1000, 0⟩, writeEntry, ⟨0x02070004, 0, 0, 10⟩, sweepEntry,
        ⟨0x02080081, 0x00280000, 0x1000, 0⟩, ⟨0x02080091, 0x00280000, 0x1000, 0⟩, ⟨0x02080013, 0x00010000, 0, 0⟩,
        ⟨0x020805A1, 0x00280000, 0x1000, 0⟩, ⟨0x020801A1, 0x00280000, 0x1000, 0⟩],
      let s := prepared e
      s.station.state = .joined ∧ (s.channel 0).state = .running ∧ (s.channel 0).prepared = some ⟨0, [⟨0x8000, 16⟩]⟩ ∧
        e.makesRequests = true ∧ s.outstanding 0 < e.limitOutstanding ∧ s.claimOutstanding e.target = false ∧
        (∀ d : Fin 4, (d - (s.engine.lastServed + 1)).val < ((0 : Fin 4) - (s.engine.lastServed + 1)).val →
          s.candidate d = false) ∧ (∀ d, d ≠ 0 → s.candidate d = false) ∧
        (s.tag 0).state = .free ∧ (∀ j : Fin 16, j < 0 → (s.tag j).state ≠ .free) ∧
        s.isPresent 7 = true ∧ s.isPresent 8 = false ∧ (s.channel 0).captured = e) ∧
      Entry.target ⟨0x02080081, 0x00280000, 0x1000, 0⟩ = 8 ∧ readEntry.target = 7 ∧
      (∀ p ∈ [((⟨0x02080081, 0x00280000, 0x1000, 0⟩ : Entry), Disposition.strict), (⟨0x02080091, 0x00280000, 0x1000, 0⟩, .tolerant),
        (⟨0x02080013, 0x00010000, 0, 0⟩, .tolerant), (⟨0x020805A1, 0x00280000, 0x1000, 0⟩, .persist),
        (⟨0x020801A1, 0x00280000, 0x1000, 0⟩, .persist)], p.1.disposition = some p.2) ∧
      Entry.segments ⟨0x02080013, 0x00010000, 0, 0⟩ ≤ 0 + 1 ∧ 0 + 1 < Entry.segments ⟨0x02080091, 0x00280000, 0x1000, 0⟩ ∧
      1 < Entry.limit ⟨0x020805A1, 0x00280000, 0x1000, 0⟩ ∧ Entry.limit ⟨0x020801A1, 0x00280000, 0x1000, 0⟩ ≤ 1 := by
  decide +kernel

/-- A sweep whose cursor stands at a qualifying peer, and past the last one. -/
theorem test_meets_TagGrant_sweep :
    let qualifies (s : State) (i : Fin 40) : Prop := (s.channel 0).sweepCursor ≤ i.val + 1 ∧ i.val + 1 ≠ s.ownAddress ∧
      (s.peer i).present = true ∧ (s.peer i).mask.getLsbD sweepEntry.window = true
    let past := (prepared sweepEntry).setChannel 0 { (prepared sweepEntry).channel 0 with sweepCursor := 8 }
    sweepEntry.isSweep = true ∧ qualifies (prepared sweepEntry) 6 ∧ (∀ j, j < 6 → ¬ qualifies (prepared sweepEntry) j) ∧
      ∀ i, ¬ qualifies past i := by decide +kernel

theorem test_meets_DeadlineExpiry :
    let persist := withTag 4 .sent .read 0 (running 0 readEntry joined)
    let strict (op : Operation) := withTag 4 .sent op 0 (running 0 ⟨0x02070001, 0x00280000, 0x1000, 0⟩ joined)
    (persist.tag 4).state = .sent ∧ (persist.tag 4).completing = false ∧ (persist.tag 4).timer ≠ .stopped ∧
      (persist.tag 4).owner = some 0 ∧ (persist.channel 0).state = .running ∧ (persist.tag 4).sweep = false ∧
      (persist.channel 0).captured.disposition = some .persist ∧
      (persist.tag 4).attempts < (persist.channel 0).captured.limit ∧
      ((strict .write).channel 0).captured.disposition = some .strict ∧ ((strict .write).tag 4).operation ≠ .claim ∧
      ((strict .claim).tag 4).operation = .claim := by decide +kernel

/-- A channel in some state at an entry, with a SENT tag of it for an attempt of an operation. -/
def awaiting (st : ChannelState) (op : Operation) (e : Entry) : State :=
  let s := withTag 4 .sent op 0 (running 0 e joined)
  (s.setChannel 0 { s.channel 0 with state := st, resumeSegment := if st = .failing then some 1 else none }).setTag 4
    { s.tag 4 with attempts := 1, sweep := e.isSweep, header := if e.isSweep then some 0x1000 else none }

/-- SENT tags of channels in every state that owns one, and of none, by disposition and operation: STRICT, TOLERANT,
PERSIST below its limit and at it, and SWEEP. -/
theorem test_meets_DeadlineExpiry_owners :
    (∀ st ∈ [ChannelState.running, .stopping, .failing], ∀ p ∈ [
        ((⟨0x02070001, 0x00280000, 0x1000, 0⟩ : Entry), Operation.read), (⟨0x02070004, 0, 0, 10⟩, .claim),
        (⟨0x02070091, 0x00280000, 0x1000, 0⟩, .read), (⟨0x02070013, 0x00010000, 0, 0⟩, .write), (readEntry, .read),
        (⟨0x020701A1, 0x00280000, 0x1000, 0⟩, .read), (claimEntry, .claim), (⟨0x02070124, 0, 0, 10⟩, .claim),
        (sweepEntry, .read), (⟨0x02010033, 0x00010000, 7, 0⟩, .write)],
      let s := awaiting st p.2 p.1
      (s.tag 4).state = .sent ∧ (s.tag 4).completing = false ∧ (s.tag 4).timer ≠ .stopped ∧ (s.tag 4).owner = some 0 ∧
        (s.channel 0).state = st ∧ (s.channel 0).captured = p.1 ∧ (s.tag 4).sweep = p.1.isSweep ∧
        (s.tag 4).operation = p.2 ∧ (s.tag 4).attempts = 1) ∧
      ((withTag 4 .sent .read 0 joined).setTag 4 { (withTag 4 .sent .read 0 joined).tag 4 with owner := none }).tag 4 =
        { (withTag 4 .sent .read 0 joined).tag 4 with owner := none } ∧
      Entry.limit ⟨0x020701A1, 0x00280000, 0x1000, 0⟩ ≤ 1 ∧ Entry.limit ⟨0x02070124, 0, 0, 10⟩ ≤ 1 ∧
      1 < readEntry.limit ∧ 1 < claimEntry.limit ∧ 0 + 1 < Entry.segments ⟨0x02070091, 0x00280000, 0x1000, 0⟩ ∧
      Entry.segments ⟨0x02070013, 0x00010000, 0, 0⟩ ≤ 0 + 1 := by decide +kernel

theorem test_meets_RetryAndCoolingExpiry :
    let s := withPeer 6 4 (withTag 4 .backoff .read 0 joined)
    (s.tag 4).timer ≠ .stopped ∧ (s.tag 4).state = .backoff ∧ s.isPresent (s.tag 4).target = true ∧
      joined.isPresent ((withTag 4 .backoff .read 0 joined).tag 4).target = false ∧
      ((withTag 4 .cooling .read 0 joined).tag 4).state = .cooling := by decide +kernel

/-- The ACCEPTED reply of a WRITE of one word. -/
def writeReply : List Byte := frameBytes [0x02, 0x03, 0x07, 0x10, 0x00, 0x02, 0x00, 0x00, 0x01, 0x00] []

/-- A SENT WRITE and a SENT READ that the replies match. -/
theorem test_meets_AcceptedReply :
    let write := withTag 0 .sent .write 1 (running 1 ⟨0x02070082, 0x00280000, 0x1000, 0⟩ joined)
    let read := (withTag 0 .sent .read 1 (running 1 readEntry joined)).setTag 0
      { (withTag 0 .sent .read 1 joined).tag 0 with count := 2 }
    write.trunk.line = none ∧
      (∀ p ∈ [(writeReply, write), (reply7, read)], receiveChecks p.1 = true ∧ kindOf p.1 = some .reply ∧
        sourceOf p.1 ≠ p.2.ownAddress ∧ destinationOf p.1 = p.2.ownAddress ∧ tagOf p.1 = 0 ∧
        (p.2.tag 0).owned = true ∧ (p.2.tag 0).completing = false ∧ (replyOf p.1).source = (p.2.tag 0).target ∧
        (replyOf p.1).generation = (p.2.tag 0).generation ∧ (replyOf p.1).status = some .accepted ∧
        (replyOf p.1).window = (p.2.tag 0).window ∧ (replyOf p.1).offset = (p.2.tag 0).offset ∧
        (replyOf p.1).count = (p.2.tag 0).count ∧ (p.2.tag 0).owner = some 1 ∧ (p.2.channel 1).state = .running ∧
        (p.2.tag 0).sweep = false) ∧
      (write.tag 0).operation = .write ∧ (replyOf writeReply).payloadLength = 0 ∧
      (write.channel 1).captured.isSweep = false ∧ (write.channel 1).completed + 1 < (write.channel 1).captured.segments ∧
      (read.tag 0).operation = .read ∧ (replyOf reply7).payloadLength = 4 * (read.tag 0).count := by decide +kernel

/-- The reply of station 7 to a request of one word, with some status byte, the won flag and a payload. -/
def answer7 (status won : Byte) (payload : List Word) : List Byte :=
  frameBytes [0x02, 0x03, 0x07, 0x14 ||| won, status, 0x02, 0x00, 0x00, 0x01, 0x00] payload

/-- Replies of every status to a READ, a WRITE and a CLAIM, the CLAIM won and lost, each at the tag of a channel in every
state that owns one. -/
theorem test_meets_AcceptedReply_statuses :
    (∀ p ∈ [((0x00 : Byte), Status.accepted), (0x11, .notReady .held), (0x21, .notReady .busy), (0x31, .notReady .leaving),
        (0x02, .refused), (0x03, .noWindow), (0x04, .range), (0x05, .fault)],
      ∀ op ∈ [Operation.read, .write, .claim],
        let s := awaiting .running op readEntry
        let s := s.setTag 4 { s.tag 4 with count := 1 }
        let payload : List Word := if p.2 = .accepted ∧ op ≠ .write then [7] else []
        let bytes := answer7 p.1 0 payload
        receiveChecks bytes = true ∧ kindOf bytes = some .reply ∧ sourceOf bytes ≠ s.ownAddress ∧
          destinationOf bytes = s.ownAddress ∧ s.ownAddress ≤ 40 ∧ tagOf bytes = 4 ∧ (s.tag 4).owned = true ∧
          (s.tag 4).completing = false ∧ (replyOf bytes).source = (s.tag 4).target ∧
          (replyOf bytes).generation = (s.tag 4).generation ∧ (replyOf bytes).window = (s.tag 4).window ∧
          (replyOf bytes).offset = (s.tag 4).offset ∧ (replyOf bytes).count = (s.tag 4).count ∧
          (replyOf bytes).status = some p.2 ∧ (replyOf bytes).payloadLength = 4 * payload.length) ∧
      (∀ won ∈ [(0x00 : Byte), 0x20], (replyOf (answer7 0x00 won [7])).payload = [7] ∧
        receiveChecks (answer7 0x00 won [7]) = true ∧ (replyOf (answer7 0x00 won [7])).won = decide (won = 0x20)) ∧
      (∀ st ∈ [ChannelState.running, .stopping, .failing], ∀ e ∈ [readEntry, sweepEntry],
        ((awaiting st .read e).tag 4).owned = true ∧ ((awaiting st .read e).channel 0).state = st ∧
          ((awaiting st .read e).tag 4).sweep = e.isSweep) := by decide +kernel

theorem test_meets_NoticePlaceGrant :
    let s := joined.setChannel 1 { Channel.reset with state := .running, captured := noticeEntry, noticeWait := .place }
    s.notices.queue.length < 4 ∧ (s.channel 1).state = .running ∧ (s.channel 1).noticeWait = .place ∧
      (∀ d : Fin 4, (d - (s.notices.lastServed + 1)).val < ((1 : Fin 4) - (s.notices.lastServed + 1)).val →
        s.hasNotice d = false) := by decide +kernel

/-- Channel 0 at a completion write of tag 4. -/
def completing (e : Entry) (record : Option SweepRecord) (stage : WriteStage) : State :=
  (withTag 4 .sent .read 0 (running 0 e joined)).setChannel 0
    { (running 0 e joined).channel 0 with writes := [⟨some 4, 0, record, stage, true⟩] }

/-- The priority order of the requesters given. -/
def ordered (o : BusOrder) (s : State) : State := { s with memory := { s.memory with order := o } }

/-- The requesters' bursts in the words of the statement. -/
theorem presents_of_requesterBurst {s : State} {r : Requester} (h : (s.requesterBurst r).isSome = true) :
    ∃ b t, State.Presents s r b t := by
  obtain ⟨b, hb⟩ := Option.isSome_iff_exists.mp h
  exact ⟨b, (requesterBurst_iff s r b).mp hb⟩

theorem silent_of_requesterBurst {s : State} {r : Requester} (h : s.requesterBurst r = none) (b : Burst) (t : State) :
    ¬ State.Presents s r b t := fun hp => by simpa [h] using (requesterBurst_iff s r b).mpr ⟨t, hp⟩

/-- The bursts that the requesters present: a record; a READ's, a WRITE's and a CLAIM's; of a channel in every state that
may present one, a descriptor fetch, a payload read and completion writes of data and of a record, the latter while a
descriptor is fetched for it. -/
def presenting : List (State × Requester) :=
  let read : ReadAccess := ⟨0x103C, 0x103C, 2, [], false⟩
  let write : WriteAccess := ⟨0x803C, 0x803C, [5, 6]⟩
  [(writing (some 20) (.station .joined), .writer), (executing (.reading read) .read, .responder),
    (executing (.writing write) .write, .responder), (executing .claimRead .claim, .responder)] ++
  [ChannelState.running, .stopping, .failing].flatMap fun st =>
    [preparing readEntry (.fetching ⟨0, 16, []⟩ read),
      preparing ⟨0x02070082, 0x00280000, 0x1000, 0⟩ (.payload [] [] read []), completing readEntry none (.writing [write]),
      completing sweepEntry (some ⟨7, .timeout, []⟩) (.writing [write]),
      completing sweepEntry (some ⟨7, .accepted, [5]⟩) (.placing 0x1000 ⟨1, 1, []⟩ read)].map fun s =>
        (s.setChannel 0 { s.channel 0 with state := st }, .engine)

/-- Each form of burst presented, a burst on the bus, and a state in which no requester presents one. -/
theorem test_meets_BusGrant :
    (∀ p ∈ presenting, p.1.memory.burst = none ∧ ∃ b t, State.Presents p.1 p.2 b t) ∧
      (onBus .writer joined).memory.burst ≠ none ∧ ready.memory.burst = none ∧ ∀ r b t, ¬ State.Presents ready r b t := by
  have key : ∀ p ∈ presenting, p.1.memory.burst = none ∧ (p.1.requesterBurst p.2).isSome = true := by decide +kernel
  exact ⟨fun p hp => ⟨(key p hp).1, presents_of_requesterBurst (key p hp).2⟩, by decide +kernel, by decide +kernel,
    fun r => silent_of_requesterBurst (by cases r <;> decide +kernel)⟩

/-- The six priority orders. -/
def orders : List BusOrder :=
  [⟨.writer, .responder, .engine⟩, ⟨.writer, .engine, .responder⟩, ⟨.responder, .writer, .engine⟩,
    ⟨.responder, .engine, .writer⟩, ⟨.engine, .writer, .responder⟩, ⟨.engine, .responder, .writer⟩]

/-- In every priority order one requester presents a burst, and the other two are silent. -/
theorem test_meets_BusGrant_orders :
    ∀ o ∈ orders, ∀ p ∈ presenting, (ordered o p.1).memory.order = o ∧ (∃ b t, State.Presents (ordered o p.1) p.2 b t) ∧
      ∀ r ∈ [Requester.writer, .responder, .engine], r ≠ p.2 → ∀ b t, ¬ State.Presents (ordered o p.1) r b t := by
  have key : ∀ o ∈ orders, ∀ p ∈ presenting, (ordered o p.1).memory.order = o ∧
      ((ordered o p.1).requesterBurst p.2).isSome = true ∧
      ∀ r ∈ [Requester.writer, .responder, .engine], r ≠ p.2 → (ordered o p.1).requesterBurst r = none := by decide +kernel
  intro o ho p hp
  obtain ⟨h1, h2, h3⟩ := key o ho p hp
  exact ⟨h1, presents_of_requesterBurst h2, fun r hr hne => silent_of_requesterBurst (h3 r hr hne)⟩

theorem test_meets_EventWriteBegin :
    let s := raiseStation .joined ready
    s.station.config.ringConfigured = true ∧ s.writer.eventFault = false ∧ s.writer.inFlight = none ∧
      s.unconsumed < s.ringSize ∧ 0 < ({ s.writer with dropCount := 1 } : Writer).dropCount ∧ s.writer.dropCount = 0 ∧
      s.sourceRecord 20 = some (.station .joined) ∧
      (∀ j : Fin 22, (j - (s.writer.lastServed + 1)).val < ((20 : Fin 22) - (s.writer.lastServed + 1)).val →
        s.sourceRecord j = none) := by decide +kernel

/-- A record write of each kind of source on the bus. -/
theorem test_meets_RecordWriteEnds :
    (∀ r ∈ [((some 21 : Option (Fin 22)), Event.peerLost 7 .silent), (some 20, .station .joined), (none, .eventsDropped 2),
        (some ((1 : Fin 4).castLE (by omega)), .chDone 1 .host), (some 10, .windowHeld 6)],
      (onBus .writer (writing r.1 r.2)).memory.burst = some ⟨.writer, 0x8000, 1, none⟩ ∧
        (onBus .writer (writing r.1 r.2)).writer.inFlight = some ⟨r.1, r.2, 0⟩) ∧
      (∀ e ∈ [Event.chDone 1 .host, .chStopped 1 .host, .chHalted 1 .host 4 (some .left) HaltDetail.none 1, .chMark 1 4 9,
          .chTolerated 1 4 2 (some .timeout)], ∀ st ∈ [ChannelState.running, .stopping, .failing],
        ((ready.setChannel 1 { Channel.reset with state := st, heldSlot := some e }).channel 1).heldSlot = some e ∧
          ((ready.setChannel 1 { Channel.reset with state := st, heldSlot := some e }).channel 1).state = st) ∧
      (some (10 : Fin 22)).map Fin.val = some (4 + (6 : Fin 16).val) ∧
      (∀ e ∈ [Event.windowHeld 6, .windowFlipped 6 .b, .windowClosed 6],
        ((ready.setWindow 6 { window6 with events := [e] }).window 6).events = [e]) := by decide +kernel

/-- The executing item's bursts: the first and the last words of a READ and of a WRITE, the read and the write of a CLAIM,
and the access of an item that an exclusion has discarded. -/
theorem test_meets_ItemResponses :
    let reading := onBus .responder (executing (.reading ⟨0x8010, 0x8010, 1, [], true⟩) .read)
    let claim := onBus .responder (executing .claimRead .claim)
    reading.memory.burst = some ⟨.responder, 0x8000, 1, none⟩ ∧ reading.responder.queue = [item9 .read] ∧
      (item9 .read).source = (8 : Fin 40).val + 1 ∧
      reading.responder.execution = some ⟨.reading ⟨0x8010, 0x8010, 1, [], true⟩, false⟩ ∧
      ReadAccess.burstWords ⟨0x8010, 0x8010, 1, [], true⟩ = 1 ∧
      ReadAccess.burstWords ⟨0x803C, 0x803C, 2, [], true⟩ = 1 ∧ 1 < (⟨0x803C, 0x803C, 2, [], true⟩ : ReadAccess).left ∧
      ([5] : List Word).length ≤ WriteAccess.burstWords ⟨0x8010, 0x8010, [5]⟩ ∧
      WriteAccess.burstWords ⟨0x803C, 0x803C, [5, 6]⟩ < ([5, 6] : List Word).length ∧
      claim.responder.execution = some ⟨.claimRead, false⟩ ∧ (item9 .claim).memoDue = true ∧
      (data 0 0)[0] = (item9 .claim).payload.getD 0 0 ∧ (data 1 0)[0] ≠ (item9 .claim).payload.getD 0 0 ∧
      (onBus .responder (executing (.claimWrite 7) .claim)).responder.execution = some ⟨.claimWrite 7, false⟩ ∧
      (after (.receiveFrame ⟨ownPresence, .mbit3, false⟩) reading).responder.execution =
        some ⟨.reading ⟨0x8010, 0x8010, 1, [], true⟩, true⟩ := by
  decide +kernel

/-- Items that an exclusion has discarded, at each stage, and a CLAIM whose memo is no longer due; a window whose hold is
completed with the item. -/
theorem test_meets_ItemResponses_discarded :
    (∀ p ∈ [(ItemStage.reading ⟨0x8010, 0x8010, 1, [], true⟩, Operation.read), (.writing ⟨0x8010, 0x8010, [5]⟩, .write),
        (.claimRead, .claim), (.claimWrite 7, .claim)],
      let s := onBus .responder (executing p.1 p.2)
      let discarded : State := { s with responder := { s.responder with execution := some ⟨p.1, true⟩ } }
      discarded.memory.burst = some ⟨.responder, 0x8000, 1, none⟩ ∧ discarded.responder.queue = [item9 p.2] ∧
        discarded.responder.execution = some ⟨p.1, true⟩ ∧ (item9 p.2).source = (8 : Fin 40).val + 1) ∧
      ({ item9 .claim with memoDue := false } : WorkItem).source = (8 : Fin 40).val + 1 ∧
      (∀ op ∈ [Operation.read, .write, .claim],
        let s := onBus .responder (executing .claimRead .claim)
        let s : State := { s with responder := { s.responder with queue := [item9 .claim, item9 op] } }
        s.responder.queue = item9 .claim :: [item9 op] ∧ (item9 op).operation = op) ∧
      ((executing .claimRead .claim).setWindow 6 { window6 with state := .held, holdPending := true }).window (item9 .claim).window =
        { window6 with state := .held, holdPending := true } := by decide +kernel

/-- A burst of some words on the local bus. -/
def bursting (owner : BurstOwner) (count : Nat) (s : State) : State :=
  { s with memory := { s.memory with burst := some ⟨owner, 0x8000, count, none⟩ } }

/-- A descriptor's burst, whole and its first word alone, of a READ, of a WRITE and of a sweep: 16 words wanted from a
region that holds them, from one that does not, and from the last one. -/
theorem test_meets_HostFaultResponse :
    let a : ReadAccess := ⟨0x1000, 0x1000, 2, [], true⟩
    (∀ e ∈ [readEntry, ⟨0x02070082, 0x00280000, 0x1000, 0⟩, sweepEntry],
      let s := bursting (.preparation 0) 2 (preparing e (.fetching ⟨0, 16, []⟩ a))
      s.memory.burst = some ⟨.preparation 0, 0x8000, 2, none⟩ ∧ (s.channel 0).state = .running ∧
        (s.channel 0).preparation = some ⟨0, .fetching ⟨0, 16, []⟩ a, false⟩) ∧
      a.burstWords = 2 ∧ a.left = 2 ∧ ReadAccess.burstWords ⟨0x103C, 0x103C, 2, [], true⟩ = 1 ∧
      (let word1 (v : Word) := (([] : List Word) ++ (data 0x2000 v).toList.take 2).getD 1 0
       field (word1 16) 0 16 = 16 ∧ field (word1 8) 0 16 = 8 ∧ bit (word1 8) 31 = false ∧
        bit (word1 0x80000008) 31 = true) ∧ readEntry.kind = some .read ∧ readEntry.isSweep = false ∧
      Entry.kind ⟨0x02070082, 0x00280000, 0x1000, 0⟩ = some .write ∧ sweepEntry.isSweep = true := by decide +kernel

/-- A WRITE's payload, with the region's last piece and with one left; the data of a READ and a sweep's record at each
stage of their writes; completion writes of a tag and of none, and dropped preparations, of channels that end. -/
theorem test_meets_HostFaultResponse_words :
    let read : ReadAccess := ⟨0x2000, 0x2000, 2, [], true⟩
    let write : WriteAccess := ⟨0x8000, 0x8000, [5]⟩
    let record : SweepRecord := ⟨7, .accepted, [5, 6]⟩
    (∀ later ∈ [([] : List Piece), [⟨0x3000, 4⟩]],
      ((preparing ⟨0x02070082, 0x00280000, 0x1000, 0⟩ (.payload [] [] read later)).channel 0).preparation =
        some ⟨0, .payload [] [] read later, false⟩) ∧
      (∀ stage ∈ [WriteStage.writing [write], .writing [write, write],
          .writing [⟨0x803C, 0x803C, [5, 6]⟩], .placing 0x1000 ⟨1, 2, []⟩ ⟨0x1008, 0x1008, 2, [], true⟩],
        ∀ r ∈ [none, some record],
          ((completing readEntry r stage).channel 0).writes = [⟨some 4, 0, r, stage, true⟩] ∧
            ((completing readEntry r stage).channel 0).state = .running) ∧
      (∀ st ∈ [ChannelState.running, .stopping, .failing], ∀ tag ∈ [some (4 : Fin 16), none],
        let s := bursting (.completion 0) 1 (completing readEntry none (.writing [write]))
        let s := s.setChannel 0 { s.channel 0 with state := st, writes := [⟨tag, 0, none, .writing [write], true⟩] }
        s.memory.burst = some ⟨.completion 0, 0x8000, 1, none⟩ ∧ (s.channel 0).state = st ∧
          (s.channel 0).writes = [⟨tag, 0, none, .writing [write], true⟩]) ∧
      (∀ st ∈ [ChannelState.stopping, .failing], ∀ stage ∈ [PrepStage.fetching ⟨0, 16, []⟩ read, .payload [] [] read []],
        let s := bursting (.preparation 0) 2 (preparing readEntry stage)
        let s := s.setChannel 0 { s.channel 0 with state := st, preparation := some ⟨0, stage, true⟩ }
        s.memory.burst = some ⟨.preparation 0, 0x8000, 2, none⟩ ∧ (s.channel 0).state = st ∧
          (s.channel 0).preparation = some ⟨0, stage, true⟩) ∧
      read.burstWords = 2 ∧ read.left = 2 ∧
      write.words.length ≤ write.burstWords ∧ WriteAccess.burstWords ⟨0x803C, 0x803C, [5, 6]⟩ < 2 ∧
      0 + 1 < readEntry.segments ∧ Entry.segments ⟨0x02070001, 0x00100000, 0x1000, 0⟩ ≤ 0 + 1 := by decide +kernel

/-- Beside the reset state, states of a working station meet what every step keeps. -/
theorem test_meets_invariants :
    State.StoreSound halted ∧ State.QueuesSound peered ∧ State.RingSound (writing (some 20) (.station .joined)) ∧
      State.RingSound { ready with writer := { ready.writer with producer := 4, consumer := 65524 } } ∧
      State.CountersSound busy ∧ State.StationSound peered := by
  unfold State.StoreSound State.QueuesSound State.RingSound State.CountersSound State.StationSound
  refine ⟨by decide +kernel, by decide +kernel, by decide +kernel, by decide +kernel, by decide +kernel, ?_, ?_, ?_⟩
  · decide +kernel
  · decide +kernel
  · have none : peered.station.pending = none := by decide +kernel
    intro p h
    rw [none] at h
    cases h

/-- A HALTED channel at rest, a reset, a CONFIGURE and channel commands, for the statements over all commands. -/
theorem test_meets_frames_over_all_commands :
    State.haltedAtRest halted 0 ∧ isReset (.registerWrite 1 0x04) = true ∧ isReset .join = false ∧
      isChannelCommand (.registerWrite 1 0x05) = true ∧ isChannelCommand .join = false ∧
      isConfigure (.registerWrite 1 0x01) = true ∧
      (after .configure (withArgs 0x0A140A01 1 0x4000 0 offline)).station.config ≠ offline.station.config ∧
      (exec .join ready = .next (after .join ready)) := by
  refine ⟨by unfold State.haltedAtRest; decide +kernel, ?_, ?_, ?_, ?_, ?_, ?_, ?_⟩ <;> first | rfl | decide +kernel

end Sys2Proof.Tests
end

/-! PROOFS. The host commands of the notice unit: the ranges of BOOK's arguments, when a booking has a waiter, and what
BOOK and NOTICE do while no command executes (R131, R139). -/

namespace Sys2Proof.Machine

/-- A command's end is its result set on the state its effect leaves (R176). -/
theorem endCommand_eq_withResult (r : CommandResult) (s : State) : endCommand (r, s) = s.withResult r := rfl

/-- A booking has a waiter when some channel is WAITING on it (R137). -/
theorem hasWaiter_iff (s : State) (b : Fin 16) :
    s.hasWaiter b = true ↔ ∃ c, (s.channel c).state = .waiting ∧ (s.channel c).waitBooking = some b := by
  simp only [State.hasWaiter, State.waitsOn, List.any_eq_true, List.mem_finRange, true_and, Bool.and_eq_true,
    decide_eq_true_eq]

/-! ## The arguments of BOOK (R139, R195) -/

theorem Arguments.booking_eq_none_iff (a : Arguments) : a.booking = none ↔ 15 < field a[0] 0 8 := by
  simp only [Arguments.booking, Arguments.window, dite_eq_right_iff, reduceCtorEq, imp_false]
  omega

theorem Arguments.booking_of_field {a : Arguments} {b : Fin 16} (h : field a[0] 0 8 = b.val) : a.booking = some b := by
  simp [Arguments.booking, Arguments.window, h]

theorem Arguments.once_eq_none_iff (a : Arguments) : a.once = none ↔ field a[0] 28 2 ≠ 1 ∧ field a[0] 28 2 ≠ 2 := by
  unfold Arguments.once
  split <;> simp_all

theorem Arguments.once_of_mode {a : Arguments} (h : field a[0] 28 2 = 1 ∨ field a[0] 28 2 = 2) :
    a.once = some (decide (field a[0] 28 2 = 1)) := by
  obtain h | h := h <;> simp [Arguments.once, h]

/-- Some argument of BOOK is out of its range: the booking, the source filter, the code, the start channel or start entry
of a booking that starts, or the mode (R139). -/
def Arguments.BookOutOfRange (a : Arguments) : Prop :=
  15 < field a[0] 0 8 ∨ 40 < field a[0] 8 8 ∨ field a[0] 16 8 = 0 ∨
    (bit a[0] 25 = true ∧ (3 < field a[1] 0 8 ∨ 1023 < field a[1] 16 16)) ∨
    (field a[0] 28 2 ≠ 1 ∧ field a[0] 28 2 ≠ 2)

/-- The range check that BOOK makes once the booking and the mode are named. -/
theorem Arguments.book_of_named {a : Arguments} {b : Fin 16} {once : Bool} (hb : a.booking = some b)
    (ho : a.once = some once) :
    a.book = if 40 < field a[0] 8 8 ∨ field a[0] 16 8 = 0 ∨
      (bit a[0] 25 = true ∧ (3 < field a[1] 0 8 ∨ 1023 < field a[1] 16 16)) then none else some (b, once) := by
  simp only [Arguments.book, hb, ho]
  refine if_congr ?_ rfl rfl
  simp only [Bool.or_eq_true, Bool.and_eq_true, decide_eq_true_eq, or_assoc]
  rfl

theorem Arguments.book_of_outOfRange {a : Arguments} (h : a.BookOutOfRange) : a.book = none := by
  cases hb : a.booking with
  | none => simp [Arguments.book, hb]
  | some b =>
    cases ho : a.once with
    | none => simp [Arguments.book, hb, ho]
    | some once =>
      have named : ¬ 15 < field a[0] 0 8 := by simp [← Arguments.booking_eq_none_iff, hb]
      have moded : ¬ (field a[0] 28 2 ≠ 1 ∧ field a[0] 28 2 ≠ 2) := by simp [← Arguments.once_eq_none_iff, ho]
      rw [Arguments.book_of_named hb ho, if_pos]
      obtain h | h | h | h | h := h
      · exact absurd h named
      · exact .inl h
      · exact .inr (.inl h)
      · exact .inr (.inr h)
      · exact absurd h moded

theorem Arguments.book_of_inRange {a : Arguments} {b : Fin 16} (h : ¬ a.BookOutOfRange) (hb : field a[0] 0 8 = b.val) :
    a.book = some (b, decide (field a[0] 28 2 = 1)) := by
  simp only [Arguments.BookOutOfRange, not_or] at h
  obtain ⟨-, filter, code, start, mode⟩ := h
  rw [Arguments.book_of_named (Arguments.booking_of_field hb) (Arguments.once_of_mode (by omega)), if_neg]
  simp only [not_or]
  exact ⟨filter, code, start⟩

/-! ## The effects -/

/-- BOOK ends at once while no command executes (R176). -/
theorem exec_book_of_idle {s : State} (h : s.port.executing = none) :
    exec .book s = .next (endCommand (takeBook s.port.arguments s)) := by
  rw [← issue_of_idle h takeBook]
  rfl

/-- NOTICE ends at once while no command executes (R176). -/
theorem exec_notice_of_idle {s : State} (h : s.port.executing = none) :
    exec .notice s = .next (endCommand (takeNotice s.port.arguments s)) := by
  rw [← issue_of_idle h takeNotice]
  rfl

theorem takeBook_of_outOfRange {a : Arguments} (h : a.BookOutOfRange) (s : State) : takeBook a s = (.badArg, s) := by
  simp [takeBook, Arguments.book_of_outOfRange h]

theorem takeBook_of_inRange {a : Arguments} {b : Fin 16} (h : ¬ a.BookOutOfRange) (hb : field a[0] 0 8 = b.val)
    (s : State) : takeBook a s = if s.hasWaiter b then (.busy, s)
      else (.done, s.setBooking b (Booking.written a (decide (field a[0] 28 2 = 1)))) := by
  simp [takeBook, Arguments.book_of_inRange h hb]

theorem takeNotice_of_outOfRange {a : Arguments} (h : 40 < field a[0] 0 8 ∨ field a[0] 8 8 = 0) (s : State) :
    takeNotice a s = (.badArg, s) := by
  refine if_pos ?_
  rw [Bool.or_eq_true, decide_eq_true_eq, decide_eq_true_eq]
  exact h

/-- NOTICE with its arguments in range, by the station state and the queue's places (R131). -/
theorem takeNotice_of_inRange {a : Arguments} (hd : field a[0] 0 8 ≤ 40) (hc : field a[0] 8 8 ≠ 0) (s : State) :
    takeNotice a s = if s.station.state ≠ .joined then (.badState, s)
      else if 4 ≤ s.notices.queue.length then (.busy, s)
      else (.done, placeNotice ⟨field a[0] 0 8, field a[0] 8 8, field a[0] 16 16, .host, 0⟩ s) := by
  refine if_neg ?_
  rw [Bool.or_eq_true, decide_eq_true_eq, decide_eq_true_eq]
  exact not_or.mpr ⟨Nat.not_lt.mpr hd, hc⟩

/-- Settles O26, by the range check of the arguments and then by whether a channel waits on the booking. -/
theorem bookEffect : Obligations.BookEffect := by
  intro s idle a outOfRange
  rw [exec_book_of_idle idle]
  refine ⟨fun out => ?_, fun b inRange hb => ?_⟩
  · rw [takeBook_of_outOfRange out, endCommand_eq_withResult]
  · rw [takeBook_of_inRange inRange hb]
    refine ⟨fun waits => ?_, fun free => ?_⟩
    · rw [if_pos ((hasWaiter_iff s b).mpr waits), endCommand_eq_withResult]
    · rw [if_neg (mt (hasWaiter_iff s b).mp free), endCommand_eq_withResult]
      rfl

/-- Settles O28, by the range check of the arguments, the station state and the places of the queue, in that order. -/
theorem noticeCommandEffect : Obligations.NoticeCommandEffect := by
  intro s idle a
  rw [exec_notice_of_idle idle]
  refine ⟨fun out => ?_, fun hd hc => ?_⟩
  · rw [takeNotice_of_outOfRange out, endCommand_eq_withResult]
  · rw [takeNotice_of_inRange hd hc]
    refine ⟨fun unjoined => ?_, fun joined full => ?_, fun joined room => ?_⟩
    · rw [if_pos unjoined, endCommand_eq_withResult]
    · rw [if_neg (not_not.mpr joined), if_pos full, endCommand_eq_withResult]
    · rw [if_neg (not_not.mpr joined), if_neg (Nat.not_le.mpr room), endCommand_eq_withResult]
      rfl

end Sys2Proof.Machine

/-! PROOFS. What an operation on one channel leaves of another (R26, R43): its context, and that it owns no tag. -/

namespace Sys2Proof.Machine

set_option Elab.async false

/-- A channel's context is as it was, and no tag has come to it. -/
structure Apart (c : Fin 4) (s t : State) : Prop where
  channel : t.channel c = s.channel c
  owner : ∀ k, (s.tag k).owner ≠ some c → (t.tag k).owner ≠ some c

namespace Apart

variable {c : Fin 4} {s t u : State}

theorem refl (c : Fin 4) (s : State) : Apart c s s := ⟨rfl, fun _ h => h⟩

theorem trans (h : Apart c s t) (k : Apart c t u) : Apart c s u :=
  ⟨k.channel.trans h.channel, fun i hi => k.owner i (h.owner i hi)⟩

theorem of_engine (h : t.engine = s.engine) : Apart c s t :=
  ⟨by simp [State.channel, h], fun k hk => by simpa [State.tag, h] using hk⟩

/-- A fold of operations that each leave a channel alone leaves it alone. -/
theorem foldl {α : Type} {f : State → α → State} (l : List α) (s : State)
    (hf : ∀ s, ∀ a ∈ l, Apart c s (f s a)) : Apart c s (l.foldl f s) := by
  induction l generalizing s with
  | nil => exact refl c s
  | cons a rest ih =>
    exact (hf s a (List.mem_cons_self ..)).trans (ih _ fun s b hb => hf s b (List.mem_cons_of_mem _ hb))

/-- A channel HALTED at rest that an operation leaves alone stays HALTED at rest. -/
theorem rests (h : Apart c s t) (hc : s.haltedAtRest c) : t.channel c = s.channel c ∧ t.haltedAtRest c := by
  obtain ⟨halted, quiet, slot, owner⟩ := hc
  exact ⟨h.channel, by rwa [h.channel], by rwa [h.channel], by rwa [h.channel], fun k => h.owner k (owner k)⟩

end Apart

section
variable {c d : Fin 4} (hd : d ≠ c)
include hd

theorem setChannel_apart (s : State) (ch : Channel) : Apart c s (s.setChannel d ch) :=
  ⟨State.setChannel_channel_of_ne s ch hd, fun _ h => h⟩

theorem raiseHeld_apart (e : Event) (s : State) : Apart c s (raiseHeld d e s) := setChannel_apart hd ..

theorem enterReporting_apart (e : Event) (s : State) : Apart c s (enterReporting d e s) := setChannel_apart hd ..

theorem badEntry_apart (n : Nat) (s : State) : Apart c s (badEntry d n s) :=
  (setChannel_apart hd ..).trans (enterReporting_apart hd ..)

end

theorem setTag_apart {c : Fin 4} (k : Fin 16) (g : Tag) (s : State)
    (h : (s.tag k).owner ≠ some c → g.owner ≠ some c) : Apart c s (s.setTag k g) := by
  refine ⟨rfl, fun j hj => ?_⟩
  rw [State.setTag_tag]
  split
  · next e => subst e; exact h hj
  · exact hj

theorem releaseTag_apart (c : Fin 4) (k : Fin 16) (s : State) : Apart c s (releaseTag k s) :=
  setTag_apart _ _ _ fun _ => nofun

theorem releaseOwned_apart (c : Fin 4) (k : Option (Fin 16)) (s : State) : Apart c s (releaseOwned k s) := by
  cases k
  · exact Apart.refl c s
  · exact releaseTag_apart ..

theorem withdrawTry_apart (c : Fin 4) (f : TryFrame → Bool) (s : State) : Apart c s (withdrawTry f s) :=
  ⟨withdrawTry_channel f s c, fun k h => by rwa [withdrawTry_tag]⟩

section
variable {c d : Fin 4} (hd : d ≠ c)
include hd

/-! ## Leaving RUNNING -/

theorem segmentFailed_apart (n : Nat) (s : State) : Apart c s (segmentFailed d n s) := by
  unfold segmentFailed; split
  · exact setChannel_apart hd ..
  · exact Apart.refl c s

theorem endBackoffTag_apart (s : State) (k : Fin 16) : Apart c s (endBackoffTag d s k) := by
  unfold endBackoffTag; split
  · exact (releaseTag_apart ..).trans (segmentFailed_apart hd ..)
  · exact Apart.refl c s

theorem failChannel_apart (e : HaltError) (detail : HaltDetail) (n : Nat) (s : State) :
    Apart c s (failChannel d e detail n s) := by
  have fails (ch : Channel) :
      Apart c s (endBackoffTags d ((detachNotices d s).setChannel d ch)) :=
    ((Apart.of_engine (s := s) (t := detachNotices d s) rfl).trans (setChannel_apart hd _ ch)).trans
      (Apart.foldl (List.finRange 16) _ fun s k _ => endBackoffTag_apart hd s k)
  unfold failChannel; split
  · exact fails _
  · exact fails _
  · exact segmentFailed_apart hd ..
  · exact Apart.refl c s

/-! ## Beginning and finishing entries -/

theorem endUnmet_apart (r : Result) (e : HaltError) (detail : HaltDetail) (s : State) :
    Apart c s (endUnmet d r e detail s) := by
  unfold endUnmet; split
  · exact (setChannel_apart hd ..).trans (raiseHeld_apart hd ..)
  · exact failChannel_apart hd ..

theorem beginWait_apart (b : Fin 16) (s : State) : Apart c s (beginWait d b s).1 := by
  unfold beginWait
  dsimp only
  split
  · exact Apart.of_engine rfl
  · split
    · exact endUnmet_apart hd ..
    · exact setChannel_apart hd ..

theorem enterEntry_apart (s : State) : Apart c s (enterEntry d s).1 := by
  unfold enterEntry
  dsimp only
  split
  · exact Apart.refl c s
  · exact Apart.refl c s
  · exact Apart.refl c s
  · exact Apart.refl c s
  · exact setChannel_apart hd ..
  · split
    · exact beginWait_apart hd ..
    · exact Apart.refl c s
  · exact raiseHeld_apart hd ..
  · exact enterReporting_apart hd ..
  · exact Apart.refl c s

theorem runFrom_apart (left : Nat) (s : State) : Apart c s (runFrom left d s) := by
  induction left generalizing s with
  | zero => exact (setChannel_apart hd ..).trans (badEntry_apart hd ..)
  | succ left ih =>
    simp only [runFrom]
    split
    · exact (setChannel_apart hd ..).trans (badEntry_apart hd ..)
    · have entered := (setChannel_apart hd s
        ((s.channel d).beginAt (1024 - (left + 1)) (s.entry (1024 - (left + 1))))).trans (enterEntry_apart hd _)
      split
      · next t ht => rw [ht] at entered; exact entered.trans (ih t)
      · next t ht => rw [ht] at entered; exact entered

theorem beginEntry_apart (n : Nat) (s : State) : Apart c s (beginEntry n d s) := runFrom_apart hd ..

theorem finishEntry_apart (s : State) : Apart c s (finishEntry d s) := by
  unfold finishEntry
  dsimp only
  split
  · exact beginEntry_apart hd ..
  · exact raiseHeld_apart hd ..

theorem finishIfResolved_apart (s : State) : Apart c s (finishIfResolved d s) := by
  unfold finishIfResolved
  dsimp only
  split
  · exact finishEntry_apart hd ..
  · exact Apart.refl c s

theorem releaseChannel_apart (s : State) : Apart c s (releaseChannel d s) :=
  (setChannel_apart hd ..).trans (finishEntry_apart hd ..)

/-! ## Outcomes -/

theorem resolveSegment_apart (s : State) : Apart c s (resolveSegment d s) := setChannel_apart hd ..

theorem tolerateSegment_apart (r : Result) (s : State) : Apart c s (tolerateSegment d r s) :=
  (setChannel_apart hd ..).trans (resolveSegment_apart hd ..)

theorem moveCursor_apart (n : Nat) (s : State) : Apart c s (moveCursor d n s) := setChannel_apart hd ..

theorem askWrite_apart (k : Fin 16) (r : Option SweepRecord) (w : WriteStage) (s : State) :
    Apart c s (askWrite d k r w s) :=
  (setTag_apart k { s.tag k with completing := true, timer := .stopped } s fun h => h).trans (setChannel_apart hd ..)

theorem beginRecord_apart (k : Fin 16) (r : Result) (s : State) : Apart c s (beginRecord d k r s) := by
  unfold beginRecord
  dsimp only
  generalize (if r = Result.accepted then List.take (s.tag k).count (s.tag k).payload else []) = words
  split
  · exact (setChannel_apart hd ..).trans (askWrite_apart hd ..)
  · split
    · exact ((setChannel_apart hd ..).trans (setChannel_apart hd ..)).trans (askWrite_apart hd ..)
    · exact ((setChannel_apart hd ..).trans (setChannel_apart hd ..)).trans (askWrite_apart hd ..)
    · exact ((setChannel_apart hd ..).trans (setChannel_apart hd ..)).trans
        ((releaseTag_apart ..).trans ((moveCursor_apart hd ..).trans (failChannel_apart hd ..)))

theorem sweepOutcome_apart (k : Fin 16) (r : Result) (s : State) : Apart c s (sweepOutcome d k r s) := by
  unfold sweepOutcome
  dsimp only
  split
  · exact beginRecord_apart hd ..
  · split
    · exact ((releaseTag_apart ..).trans (moveCursor_apart hd ..)).trans (resolveSegment_apart hd ..)
    · exact ((releaseTag_apart ..).trans (moveCursor_apart hd ..)).trans (tolerateSegment_apart hd ..)

theorem runningOutcome_apart (k : Fin 16) (r : Result) (s : State) : Apart c s (runningOutcome d k r s) := by
  unfold runningOutcome
  dsimp only
  split
  · exact sweepOutcome_apart hd ..
  · split
    · exact setTag_apart _ _ _ fun h => h
    · split
      · exact askWrite_apart hd ..
      · exact ((releaseTag_apart ..).trans (resolveSegment_apart hd ..)).trans (finishIfResolved_apart hd ..)
    · exact ((releaseTag_apart ..).trans (tolerateSegment_apart hd ..)).trans (finishIfResolved_apart hd ..)
    · exact (releaseTag_apart ..).trans (failChannel_apart hd ..)

theorem failingOutcome_apart (k : Fin 16) (r : Result) (s : State) : Apart c s (failingOutcome d k r s) := by
  unfold failingOutcome
  dsimp only
  split
  · exact sweepOutcome_apart hd ..
  · split
    · split
      · exact askWrite_apart hd ..
      · exact (releaseTag_apart ..).trans (resolveSegment_apart hd ..)
    · split
      · exact (releaseTag_apart ..).trans (tolerateSegment_apart hd ..)
      · exact (releaseTag_apart ..).trans (segmentFailed_apart hd ..)

end

/-- The outcome of an attempt of a tag leaves the channels that do not own it. -/
theorem attemptOutcome_apart {c : Fin 4} (k : Fin 16) (r : Result) (s : State) (h : (s.tag k).owner ≠ some c) :
    Apart c s (attemptOutcome k r s) := by
  unfold attemptOutcome
  dsimp only
  generalize hu : State.setTag (withdrawTry (TryFrame.isRequestOf k) s) k _ = u
  have hs : Apart c s u := hu ▸ (withdrawTry_apart c _ s).trans (setTag_apart _ _ _ fun h => h)
  refine hs.trans ?_
  split
  · exact Apart.refl c u
  · next d ho =>
    have hd : d ≠ c := fun e => hs.owner k h (e ▸ ho)
    split
    · exact runningOutcome_apart hd ..
    · exact failingOutcome_apart hd ..
    · exact releaseTag_apart ..

section
variable {c d : Fin 4} (hd : d ≠ c)
include hd

theorem popWrite_apart (s : State) : Apart c s (popWrite d s) := setChannel_apart hd ..

theorem setWriteStage_apart (w : CompletionWrite) (g : WriteStage) (s : State) :
    Apart c s (setWriteStage d w g s) := setChannel_apart hd ..

theorem writeDone_apart (w : CompletionWrite) (s : State) : Apart c s (writeDone d w s) := by
  unfold writeDone
  dsimp only
  refine (releaseOwned_apart c w.tag s).trans ?_
  split
  · split
    · exact ((setChannel_apart hd ..).trans (moveCursor_apart hd ..)).trans
        ((resolveSegment_apart hd ..).trans (finishIfResolved_apart hd ..))
    · exact (resolveSegment_apart hd ..).trans (finishIfResolved_apart hd ..)
  · exact Apart.refl c _

/-! ## Preparation -/

theorem segmentPrepared_apart (n : Nat) (p : List Piece) (s : State) : Apart c s (segmentPrepared d n p s) :=
  setChannel_apart hd ..

theorem segmentPlaced_apart (n : Nat) (p : List Piece) (s : State) : Apart c s (segmentPlaced d n p s) := by
  unfold segmentPlaced
  dsimp only
  split
  · exact (setChannel_apart hd ..).trans (segmentPrepared_apart hd ..)
  · split
    · exact segmentPrepared_apart hd ..
    · split
      · exact segmentPrepared_apart hd ..
      · exact setChannel_apart hd ..

theorem walkPreparation_apart (n : Nat) (r : WalkRequest) (s : State) : Apart c s (walkPreparation d n r s) := by
  unfold walkPreparation
  dsimp only
  split
  · exact (setChannel_apart hd ..).trans (segmentPlaced_apart hd ..)
  · exact (setChannel_apart hd ..).trans (failChannel_apart hd ..)
  · exact (setChannel_apart hd ..).trans (setChannel_apart hd ..)

/-! ## The engine's part of a burst response -/

theorem preparationResponse_apart (error : Bool) (words : List Word) (s : State) :
    Apart c s (preparationResponse d error words s) := by
  have faulted (n : Nat) (a : FaultAccess) (w : Word) : Apart c s (hostFault d n a w (setPreparation d none s)) :=
    (setChannel_apart hd ..).trans (failChannel_apart hd ..)
  have prepares (p : Option Preparation) : Apart c s (setPreparation d p s) := setChannel_apart hd ..
  unfold preparationResponse
  dsimp only
  split
  · exact Apart.refl c s
  · split
    · split
      · exact faulted ..
      · split
        · exact prepares _
        · split
          · exact prepares _
          · exact (setChannel_apart hd ..).trans (walkPreparation_apart hd ..)
    · split
      · exact faulted ..
      · split
        · exact prepares _
        · split
          · exact prepares _
          · split
            · exact (setChannel_apart hd ..).trans (segmentPrepared_apart hd ..)
            · exact prepares _

theorem abandonWrite_apart (w : CompletionWrite) (s : State) : Apart c s (abandonWrite d w s) := by
  unfold abandonWrite
  dsimp only
  split
  · exact (popWrite_apart hd s).trans ((releaseOwned_apart ..).trans (moveCursor_apart hd ..))
  · exact (popWrite_apart hd s).trans (releaseOwned_apart ..)

theorem walkRecord_apart (w : CompletionWrite) (header : Word) (r : WalkRequest) (s : State) :
    Apart c s (walkRecord d w header r s) := by
  unfold walkRecord
  dsimp only
  split
  · exact (setChannel_apart hd ..).trans (setWriteStage_apart hd ..)
  · exact (setChannel_apart hd ..).trans (setWriteStage_apart hd ..)
  · exact (setChannel_apart hd ..).trans ((abandonWrite_apart hd ..).trans (failChannel_apart hd ..))

theorem completionResponse_apart (error : Bool) (words : List Word) (s : State) :
    Apart c s (completionResponse d error words s) := by
  have faulted (w : CompletionWrite) (a : FaultAccess) (addr : Word) : Apart c s (writeFaulted d w a addr s) :=
    (abandonWrite_apart hd ..).trans (failChannel_apart hd ..)
  have done (w : CompletionWrite) : Apart c s (writeDone d w (popWrite d s)) :=
    (popWrite_apart hd s).trans (writeDone_apart hd ..)
  unfold completionResponse
  dsimp only
  split
  · exact Apart.refl c s
  · split
    · split
      · exact faulted ..
      · split
        · exact setWriteStage_apart hd ..
        · exact (setChannel_apart hd ..).trans (walkRecord_apart hd ..)
    · exact done _
    · split
      · exact faulted ..
      · split
        · exact setWriteStage_apart hd ..
        · split
          · exact setWriteStage_apart hd ..
          · exact done _

/-! ## Notices and held events -/

theorem reportEnd_apart (s : State) : Apart c s (reportEnd d s) := by
  unfold reportEnd
  dsimp only
  split
  · split
    · exact enterReporting_apart hd ..
    · exact enterReporting_apart hd ..
    · exact Apart.refl c s
  · exact Apart.refl c s

theorem leaveChannel_apart (s : State) : Apart c s (leaveChannel d s) := by
  unfold leaveChannel
  dsimp only
  split
  · exact (setChannel_apart hd ..).trans (failChannel_apart hd ..)
  · split
    · exact failChannel_apart hd ..
    · exact Apart.refl c s

theorem heldPlaced_apart (s : State) : Apart c s (heldPlaced d s) := by
  unfold heldPlaced
  dsimp only
  refine (setChannel_apart hd s { s.channel d with heldSlot := none }).trans ?_
  split
  · split
    · exact finishEntry_apart hd ..
    · exact Apart.refl c _
  · split
    · exact beginEntry_apart hd ..
    · exact Apart.refl c _
  · exact setChannel_apart hd ..
  · exact setChannel_apart hd ..
  · exact setChannel_apart hd ..
  · exact Apart.refl c _

end

end Sys2Proof.Machine

/-! PROOFS. What the operations inside a step keep: the bounds of the queues and of the counters, a sound station with its
state, and a HALTED channel at rest (R43, R110, R112, R128, R134, R152, R178, R182). -/

namespace Sys2Proof.Machine

set_option Elab.async false

/-- The bounds of the queues and counters and the soundness of the station are kept. -/
structure Bounded (s t : State) : Prop where
  queues : s.QueuesSound → t.QueuesSound
  counters : s.CountersSound → t.CountersSound
  sound : s.StationSound → t.StationSound

/-- Beside the bounds, the station state is as it was and the channels HALTED at rest are. -/
structure Steady (s t : State) : Prop extends Bounded s t where
  state : t.station.state = s.station.state
  rests : ∀ c, s.haltedAtRest c → t.channel c = s.channel c ∧ t.haltedAtRest c

theorem Bounded.refl (s : State) : Bounded s s := ⟨id, id, id⟩

theorem Bounded.trans {s t u : State} (h : Bounded s t) (k : Bounded t u) : Bounded s u :=
  ⟨k.queues ∘ h.queues, k.counters ∘ h.counters, k.sound ∘ h.sound⟩

namespace Steady

theorem refl (s : State) : Steady s s := ⟨.refl s, rfl, fun _ h => ⟨rfl, h⟩⟩

theorem trans {s t u : State} (h : Steady s t) (k : Steady t u) : Steady s u := by
  refine ⟨h.toBounded.trans k.toBounded, k.state.trans h.state, fun c hc => ?_⟩
  obtain ⟨e, ht⟩ := h.rests c hc
  obtain ⟨e', hu⟩ := k.rests c ht
  exact ⟨e'.trans e, hu⟩

theorem foldl {α : Type} {f : State → α → State} (hf : ∀ s a, Steady s (f s a)) (l : List α) (s : State) :
    Steady s (l.foldl f s) := by
  induction l generalizing s with
  | nil => exact refl s
  | cons a rest ih => exact (hf s a).trans (ih _)

end Steady

open Steady

/-! ## Operations of the engine -/

theorem EngineFrame.bounded {s t : State} (h : EngineFrame s t) : Bounded s t where
  queues hs := by
    simpa only [State.QueuesSound, State.immediateTaken, State.reservedTaken, h.noticeLength, h.writer, h.replies,
      h.responder] using hs
  counters hs := by simpa only [State.CountersSound, h.counters, h.writer, h.matchCount] using hs
  sound hs := by simpa only [State.StationSound, State.peer, State.ownAddress, h.station] using hs

/-- An operation of the engine is steady when it leaves the channels HALTED at rest alone. -/
theorem EngineFrame.steady {s t : State} (h : EngineFrame s t) (ha : ∀ c, s.haltedAtRest c → Apart c s t) :
    Steady s t :=
  ⟨h.bounded, congrArg Station.state h.station, fun c hc => (ha c hc).rests hc⟩

theorem Apart.steady {s t : State} (h : EngineFrame s t) (ha : ∀ c, Apart c s t) : Steady s t := h.steady fun c _ => ha c

theorem State.haltedAtRest.state {s : State} {c : Fin 4} (h : s.haltedAtRest c) : (s.channel c).state = .halted := h.1

theorem State.haltedAtRest.slot {s : State} {c : Fin 4} (h : s.haltedAtRest c) : (s.channel c).heldSlot = none := h.2.2.1

theorem State.haltedAtRest.owner {s : State} {c : Fin 4} (h : s.haltedAtRest c) (k : Fin 16) :
    (s.tag k).owner ≠ some c := h.2.2.2 k

theorem State.haltedAtRest.preparation {s : State} {c : Fin 4} (h : s.haltedAtRest c) :
    (s.channel c).preparation = none ∧ (s.channel c).writes = [] := by
  simpa [Channel.quiet] using h.2.1

/-- A channel in another state than HALTED is another channel than one at rest. -/
theorem State.haltedAtRest.ne {s : State} {c d : Fin 4} (h : s.haltedAtRest c) {x : ChannelState}
    (hd : (s.channel d).state = x) (hx : x ≠ .halted := by decide) : d ≠ c := by
  rintro rfl; exact hx (hd.symm.trans h.state)

/-- A state is told from HALTED. -/
theorem State.haltedAtRest.ne_of_ne {s : State} {c d : Fin 4} (h : s.haltedAtRest c)
    (hd : (s.channel d).state ≠ .halted) : d ≠ c := by
  rintro rfl; exact hd h.state

/-- An update of a channel that is not HALTED, or that changes nothing. -/
theorem setChannel_steady (d : Fin 4) (ch : Channel) (s : State)
    (h : (s.channel d).state ≠ .halted ∨ ∀ c, s.haltedAtRest c → d = c → ch = s.channel d) :
    Steady s (s.setChannel d ch) := by
  refine (setChannel_frame ..).steady fun c hc => ?_
  by_cases hd : d = c
  · obtain h | h := h
    · exact absurd hd (hc.ne_of_ne h)
    · obtain rfl := hd
      exact ⟨by rw [State.setChannel_channel_self, h d hc rfl], fun _ hk => hk⟩
  · exact setChannel_apart hd ..

theorem attemptOutcome_steady (k : Fin 16) (r : Result) (s : State) : Steady s (attemptOutcome k r s) :=
  (attemptOutcome_frame ..).steady fun _ hc => attemptOutcome_apart k r s (hc.owner k)

/-- An update of a tag that keeps its owner. -/
theorem setTag_steady (k : Fin 16) (g : Tag) (s : State) (h : g.owner = (s.tag k).owner) : Steady s (s.setTag k g) :=
  (setTag_frame ..).steady fun _ _ => setTag_apart k g s fun hk => h ▸ hk

theorem attemptBegins_steady (k : Fin 16) (s : State) : Steady s (attemptBegins k s) := by
  unfold attemptBegins; split
  · exact refl s
  · exact attemptOutcome_steady ..

theorem deadlineExpired_steady (k : Fin 16) (s : State) : Steady s (deadlineExpired k s) := by
  unfold deadlineExpired
  dsimp only
  split
  · exact (setTag_steady _ _ _ (by rfl)).trans (attemptOutcome_steady ..)
  · exact refl s

theorem retryExpired_steady (k : Fin 16) (s : State) : Steady s (retryExpired k s) := by
  unfold retryExpired
  dsimp only
  split
  · refine (setTag_steady k _ s ?_).trans (attemptBegins_steady ..)
    dsimp only
    split <;> rfl
  · exact refl s

theorem coolingExpired_steady (k : Fin 16) (s : State) : Steady s (coolingExpired k s) := by
  unfold coolingExpired
  dsimp only
  split
  · exact setTag_steady _ _ _ (by rfl)
  · exact refl s

theorem tagPeerLost_steady (a : Nat) (s : State) (k : Fin 16) : Steady s (tagPeerLost a s k) := by
  unfold tagPeerLost
  dsimp only
  split
  · exact (setTag_steady _ _ _ (by rfl)).trans (attemptOutcome_steady ..)
  · exact refl s

theorem waitExpired_steady (d : Fin 4) (s : State) : Steady s (waitExpired d s) := by
  refine (waitExpired_frame ..).steady fun c hc => ?_
  unfold waitExpired
  dsimp only
  split
  · next h =>
    rw [Bool.and_eq_true, decide_eq_true_eq] at h
    exact endUnmet_apart (hc.ne h.1) ..
  · exact Apart.refl c s

theorem prepareSegment_steady (d : Fin 4) (s : State) : Steady s (prepareSegment d s) := by
  refine (prepareSegment_frame ..).steady fun c hc => ?_
  unfold prepareSegment
  dsimp only
  split
  · exact Apart.refl c s
  · next h =>
    have running : (s.channel d).state = .running := by
      rw [Bool.not_eq_true, Bool.not_eq_false'] at h
      simp only [State.mayPrepare, Bool.and_eq_true, decide_eq_true_eq] at h
      exact h.1.1.1.1.1.1
    have hd := hc.ne running
    split
    · exact finishEntry_apart hd ..
    · split
      · exact walkPreparation_apart hd ..
      · exact segmentPrepared_apart hd ..

theorem grantTag_apart {c d : Fin 4} (hd : d ≠ c) (k : Fin 16) (p : PreparedSegment) (n : Nat) (s : State) :
    Apart c s (grantTag d k p n s) := by
  unfold grantTag attemptBegins
  dsimp only
  generalize hg : filledTag (s.tag k) d (s.channel d) p n = g
  have owner : g.owner ≠ some c := by rw [← hg]; exact fun h => hd (Option.some.inj h)
  generalize hu : (s.setTag k g).setChannel d _ = u
  have hs : Apart c s u := hu ▸ (setTag_apart k g s fun _ => owner).trans (setChannel_apart hd ..)
  have hk : (u.tag k).owner ≠ some c := by rw [← hu, State.setChannel_tag_eq, State.setTag_tag_self]; exact owner
  have served : Apart c u { u with engine := { u.engine with lastServed := d } } := ⟨rfl, fun _ h => h⟩
  split
  · exact hs.trans served
  · exact (hs.trans served).trans (attemptOutcome_apart _ _ _ hk)

theorem grantFrom_steady (l : List (Fin 4)) (s : State) : Steady s (grantFrom l s) := by
  refine (grantFrom_frame ..).steady fun c hc => ?_
  induction l generalizing s with
  | nil => exact Apart.refl c s
  | cons d rest ih =>
    simp only [grantFrom]
    split
    · next h =>
      have running : (s.channel d).state = .running := by
        simp only [State.candidate, Bool.and_eq_true, decide_eq_true_eq] at h
        exact h.1.1.1.2
      have hd := hc.ne running
      split
      · exact grantTag_apart hd ..
      · have discarded : Apart c s (discardSweep d s) := (setChannel_apart hd ..).trans (finishEntry_apart hd ..)
        exact discarded.trans (ih _ (discarded.rests hc).2)
      · exact Apart.refl c s
    · exact ih s hc

theorem reportEnd_steady (d : Fin 4) (s : State) : Steady s (reportEnd d s) := by
  refine (reportEnd_frame ..).steady fun c hc => ?_
  by_cases hd : d = c
  · subst hd
    have kept : reportEnd d s = s := by simp [reportEnd, hc.state]
    rw [kept]; exact Apart.refl d s
  · exact reportEnd_apart hd ..

theorem replyArrival_steady (r : ReceivedReply) (s : State) : Steady s (replyArrival r s) := by
  unfold replyArrival
  dsimp only
  split
  · exact (setTag_steady _ _ _ (by rfl)).trans (attemptOutcome_steady ..)
  · refine ⟨⟨id, fun h => ?_, id⟩, rfl, fun _ h => ⟨rfl, h⟩⟩
    obtain ⟨check, -, rest⟩ := h
    exact ⟨check, satInc_le _, rest⟩

theorem preparationResponse_steady (d : Fin 4) (error : Bool) (words : List Word) (s : State) :
    Steady s (preparationResponse d error words s) := by
  refine (preparationResponse_frame ..).steady fun c hc => ?_
  by_cases hd : d = c
  · subst hd
    have kept : preparationResponse d error words s = s := by simp [preparationResponse, hc.preparation.1]
    rw [kept]; exact Apart.refl d s
  · exact preparationResponse_apart hd ..

theorem completionResponse_steady (d : Fin 4) (error : Bool) (words : List Word) (s : State) :
    Steady s (completionResponse d error words s) := by
  refine (completionResponse_frame ..).steady fun c hc => ?_
  by_cases hd : d = c
  · subst hd
    have kept : completionResponse d error words s = s := by simp [completionResponse, hc.preparation.2]
    rw [kept]; exact Apart.refl d s
  · exact completionResponse_apart hd ..

theorem leaveChannel_steady (d : Fin 4) (s : State) : Steady s (leaveChannel d s) := by
  refine (leaveChannel_frame ..).steady fun c hc => ?_
  by_cases hd : d = c
  · subst hd
    have kept : leaveChannel d s = s := by simp [leaveChannel, Channel.pausedAtTolerated, hc.slot, hc.state]
    rw [kept]; exact Apart.refl d s
  · exact leaveChannel_apart hd ..

theorem heldPlaced_frame (d : Fin 4) (s : State) : EngineFrame s (heldPlaced d s) := by
  unfold heldPlaced
  dsimp only
  refine (setChannel_frame s d { s.channel d with heldSlot := none }).trans ?_
  split
  · split
    · exact finishEntry_frame ..
    · exact EngineFrame.refl _
  · split
    · exact beginEntry_frame ..
    · exact EngineFrame.refl _
  · exact setChannel_frame ..
  · exact setChannel_frame ..
  · exact setChannel_frame ..
  · exact EngineFrame.refl _

theorem heldPlaced_steady (d : Fin 4) (s : State) : Steady s (heldPlaced d s) := by
  refine (heldPlaced_frame ..).steady fun c hc => ?_
  by_cases hd : d = c
  · subst hd
    have kept : heldPlaced d s = s.setChannel d { s.channel d with heldSlot := none } := by simp [heldPlaced, hc.slot]
    rw [kept, ← hc.slot]
    exact ⟨State.setChannel_channel_self .., fun _ h => h⟩
  · exact heldPlaced_apart hd ..

/-! ## Events, notices and bookings -/

theorem offerDroppable_steady (e : Event) (s : State) : Steady s (offerDroppable e s) := by
  rcases offerDroppable_cases e s with ⟨hl, he⟩ | ⟨-, he⟩ <;> rw [he]
  · refine ⟨⟨fun ⟨h1, _, h3⟩ => ⟨h1, ?_, h3⟩, id, id⟩, rfl, fun _ h => ⟨rfl, h⟩⟩
    simp only [List.length_append, List.length_singleton]; omega
  · refine ⟨⟨id, fun ⟨h1, h2, h3, h4, _, _, h7⟩ => ⟨h1, h2, h3, h4, satInc_le _, satInc_le _, h7⟩, id⟩, rfl,
      fun _ h => ⟨rfl, h⟩⟩

theorem raiseStation_steady (e : StationEvent) (s : State) : Steady s (raiseStation e s) :=
  ⟨⟨id, id, id⟩, rfl, fun _ h => ⟨rfl, h⟩⟩

theorem setBooking_steady (b : Fin 16) (x : Booking) (s : State)
    (hx : (s.booking b).matchCount ≤ 65535 → x.matchCount ≤ 65535) : Steady s (s.setBooking b x) := by
  refine ⟨⟨id, fun ⟨h1, h2, h3, h4, h5, h6, h7⟩ => ⟨h1, h2, h3, h4, h5, h6, fun j => ?_⟩, id⟩, rfl, fun _ h => ⟨rfl, h⟩⟩
  rw [State.setBooking_booking]
  split
  · exact hx (h7 b)
  · exact h7 j

theorem placeNotice_steady (n : QueuedNotice) (s : State) (h : s.notices.queue.length < 4) :
    Steady s (placeNotice n s) := by
  refine ⟨⟨fun ⟨_, h2⟩ => ⟨?_, h2⟩, id, id⟩, rfl, fun _ h => ⟨rfl, h⟩⟩
  simp only [placeNotice, List.length_append, List.length_singleton]; omega

/-- An update of the notice unit that lengthens no queue and keeps the bookings. -/
theorem setNotices_steady (x : NoticeUnit) (s : State) (hq : x.queue.length ≤ s.notices.queue.length)
    (hb : x.bookings = s.notices.bookings) : Steady s { s with notices := x } := by
  refine ⟨⟨fun ⟨h1, h2⟩ => ⟨Nat.le_trans hq h1, h2⟩, fun h => ?_, id⟩, rfl, fun _ h => ⟨rfl, h⟩⟩
  simpa only [State.CountersSound, State.booking, hb] using h

theorem grantNoticePlace_steady (s : State) : Steady s (grantNoticePlace s) := by
  unfold grantNoticePlace
  split
  · next hl =>
    split
    · next d hd =>
      have running : (s.channel d).state = .running := by
        have h := List.find?_some hd
        simp only [State.hasNotice, Bool.and_eq_true, decide_eq_true_eq] at h
        exact h.1
      exact (placeNotice_steady _ s hl).trans ((setChannel_steady d _ _ (.inl (by
        show (s.channel d).state ≠ _; rw [running]; decide))).trans (setNotices_steady _ _ (Nat.le_refl _) rfl))
    · exact refl s
  · exact refl s

theorem reportNotice_steady (n : QueuedNotice) (complete : Bool) (s : State) :
    Steady s (reportNotice n complete s) := by
  unfold reportNotice
  split
  · next d _ =>
    split
    · next h =>
      rw [Bool.and_eq_true, decide_eq_true_eq] at h
      dsimp only
      split
      · exact ((setChannel_frame ..).trans (finishEntry_frame ..)).steady fun c hc =>
          (setChannel_apart (hc.ne h.1) ..).trans (finishEntry_apart (hc.ne h.1) ..)
      · exact ((setChannel_frame ..).trans (endUnmet_frame ..)).steady fun c hc =>
          (setChannel_apart (hc.ne h.1) ..).trans (endUnmet_apart (hc.ne h.1) ..)
    · exact refl s
  · split
    · exact refl s
    · exact offerDroppable_steady ..
  · exact refl s

theorem releaseChannel_foldl_apart {c : Fin 4} (l : List (Fin 4)) (h : c ∉ l) (s : State) :
    Apart c s (l.foldl (fun s d => releaseChannel d s) s) :=
  Apart.foldl l s fun s d hd => releaseChannel_apart (fun (e : d = c) => h (e ▸ hd)) s

theorem releaseAction_steady (b : Fin 16) (s : State) : Steady s (releaseAction b s) := by
  unfold releaseAction
  split
  · exact setBooking_steady _ _ _ id
  · refine EngineFrame.steady (EngineFrame.foldl (fun s c => releaseChannel_frame c s) _ s) fun c hc => ?_
    refine releaseChannel_foldl_apart _ (fun hm => ?_) s
    simp only [List.mem_filter, State.waitsOn, Bool.and_eq_true, decide_eq_true_eq] at hm
    exact hc.ne hm.2.1 (by decide) rfl

/-- The START action is steady, and the channel that it starts is not one at rest. -/
theorem startAction_steady (b : Fin 16) (s : State) :
    Steady s (startAction b s).1 ∧ ∀ st, (startAction b s).2 = some st → ∀ c, s.haltedAtRest c → st.channel ≠ c := by
  unfold startAction
  dsimp only
  split
  · split
    · next h =>
      rw [Bool.and_eq_true, decide_eq_true_eq, decide_eq_true_eq] at h
      refine ⟨setChannel_steady _ _ _ (.inl (by rw [h.2]; decide)), fun st hst c hc => ?_⟩
      obtain rfl := Option.some.inj hst
      exact hc.ne h.2
    · exact ⟨offerDroppable_steady .., nofun⟩
  · exact ⟨refl s, nofun⟩

theorem bookingActs_steady (n : NoticeArrival) (b : Fin 16) (s : State) :
    Steady s (bookingActs n b s).1 ∧ ∀ st, (bookingActs n b s).2 = some st → ∀ c, s.haltedAtRest c → st.channel ≠ c := by
  unfold bookingActs
  dsimp only
  generalize hu : (s.setBooking b _) = u
  have h0 : Steady s u := hu ▸ setBooking_steady _ _ _ fun _ => satInc_le _
  generalize hv : (if (u.booking b).post = true then _ else u) = v
  have h1 : Steady u v := by
    rw [← hv]; split
    · exact offerDroppable_steady ..
    · exact refl u
  generalize hx : (if (u.booking b).start = true then _ else (v, none)) = x
  have h2 : Steady v x.1 ∧ ∀ st, x.2 = some st → ∀ c, v.haltedAtRest c → st.channel ≠ c := by
    rw [← hx]; split
    · exact startAction_steady ..
    · exact ⟨refl v, nofun⟩
  obtain ⟨x, started⟩ := x
  obtain ⟨h2, h2'⟩ := h2
  dsimp only at h2 h2' ⊢
  generalize hy : (if (u.booking b).release = true then _ else x) = y
  have h3 : Steady x y := by
    rw [← hy]; split
    · exact releaseAction_steady ..
    · exact refl x
  have h4 := h0.trans (h1.trans (h2.trans h3))
  refine ⟨?_, fun st hst c hc => h2' st hst c (((h0.trans h1).rests c hc).2)⟩
  split
  · exact h4.trans (setBooking_steady _ _ _ id)
  · exact h4

theorem compareBookings_steady (n : NoticeArrival) (l : List (Fin 16)) (s : State) :
    Steady s (compareBookings n l s).1 ∧
      ∀ st ∈ (compareBookings n l s).2, ∀ c, s.haltedAtRest c → st.channel ≠ c := by
  induction l generalizing s with
  | nil => exact ⟨refl s, by simp [compareBookings]⟩
  | cons b rest ih =>
    simp only [compareBookings]
    split
    · obtain ⟨acts, started⟩ := bookingActs_steady n b s
      obtain ⟨later, begun⟩ := ih (bookingActs n b s).1
      refine ⟨acts.trans later, fun st hst c hc => ?_⟩
      rcases List.mem_append.mp hst with hst | hst
      · exact started st (Option.mem_toList.mp hst) c hc
      · exact begun st hst c (acts.rests c hc).2
    · exact ih s

theorem noticeArrival_steady (n : NoticeArrival) (s : State) : Steady s (noticeArrival n s) := by
  unfold noticeArrival
  dsimp only
  split
  · obtain ⟨compared, started⟩ := compareBookings_steady n (List.finRange 16) s
    have begun := EngineFrame.foldl (f := fun (s : State) (st : StartedChannel) => beginEntry st.entry st.channel s)
      (fun s st => beginEntry_frame st.entry st.channel s) (compareBookings n (List.finRange 16) s).2
      (compareBookings n (List.finRange 16) s).1
    refine ⟨compared.toBounded.trans begun.bounded, ?_, fun c hc => ?_⟩
    · exact (congrArg Station.state begun.station).trans compared.state
    · obtain ⟨e, rest⟩ := compared.rests c hc
      obtain ⟨e', rest'⟩ := (Apart.foldl (f := fun (s : State) (st : StartedChannel) => beginEntry st.entry st.channel s)
        (compareBookings n (List.finRange 16) s).2 _
        fun s st hst => beginEntry_apart (started st hst c hc) st.entry s).rests rest
      exact ⟨e'.trans e, rest'⟩
  · exact refl s

/-! ## The responder -/

/-- An update of the responder that takes no further slot. -/
theorem setResponder_steady (x : Responder) (s : State) (h : x.slottedItems ≤ s.responder.slottedItems) :
    Steady s { s with responder := x } := by
  refine ⟨⟨fun ⟨h1, h2, h3, h4⟩ => ⟨h1, h2, h3, ?_⟩, id, id⟩, rfl, fun _ h => ⟨rfl, h⟩⟩
  have : x.slottedItems + s.trunk.replies.countP (fun q => q.reserved) ≤ s.reservedTaken := Nat.add_le_add_right h _
  exact Nat.le_trans this h4

theorem testWindow_steady (i : Fin 16) (s : State) : Steady s (testWindow i s) :=
  setResponder_steady _ s (Nat.le_refl _)

theorem setWindow_steady (i : Fin 16) (w : Window) (s : State) : Steady s (s.setWindow i w) :=
  setResponder_steady _ s (Nat.le_refl _)

theorem setMemo_steady (i : Fin 40) (m : Option Memo) (s : State) : Steady s (s.setMemo i m) :=
  setResponder_steady _ s (Nat.le_refl _)

theorem testWindows_steady (s : State) : Steady s (testWindows s) := foldl (fun s i => testWindow_steady i s) _ s

theorem immediateReply_steady (r : Reply) (s : State) : Steady s (immediateReply r s) := by
  unfold immediateReply; split
  · next h =>
    refine ⟨⟨fun ⟨h1, h2, h3, h4⟩ => ⟨h1, h2, ?_, ?_⟩, id, id⟩, rfl, fun _ h => ⟨rfl, h⟩⟩
    · simp only [State.immediateTaken] at h
      simp only [State.immediateTaken, placeReply, List.countP_append, List.countP_singleton]; simp; omega
    · simp only [State.reservedTaken] at h4
      simpa [State.reservedTaken, placeReply] using h4
  · exact ⟨⟨id, fun ⟨h1, h2, _, h4⟩ => ⟨h1, h2, satInc_le _, h4⟩, id⟩, rfl, fun _ h => ⟨rfl, h⟩⟩

/-- The item that begins to execute keeps its slot. -/
theorem executeHead_steady (s : State) : Steady s (executeHead s) := by
  unfold executeHead; split
  · next hx hq => exact setResponder_steady _ s (by simp [Responder.slottedItems, hx])
  · exact refl s

theorem queueItem_steady (item : WorkItem) (s : State) (h : s.reservedTaken < 8) : Steady s (queueItem item s) := by
  refine Steady.trans ?_ (executeHead_steady _)
  refine ⟨⟨fun ⟨h1, h2, h3, _⟩ => ⟨h1, h2, h3, ?_⟩, id, id⟩, rfl, fun _ h => ⟨rfl, h⟩⟩
  simp only [State.reservedTaken, Responder.slottedItems, List.length_append, List.length_singleton] at h ⊢
  split at h
  · next e _ => cases hd : e.discarded <;> simp [hd] at h ⊢ <;> omega
  · omega

theorem emptyMemoOnArrival_steady (r : Request) (s : State) : Steady s (emptyMemoOnArrival r s) := by
  unfold emptyMemoOnArrival
  split
  · split
    · split
      · exact setMemo_steady ..
      · exact refl s
    · exact refl s
  · exact refl s

theorem judgeRequest_steady (r : Request) (s : State) : Steady s (judgeRequest r s) := by
  unfold judgeRequest
  dsimp only
  split
  · exact immediateReply_steady ..
  · split
    · exact immediateReply_steady ..
    · split
      · exact immediateReply_steady ..
      · split
        · exact immediateReply_steady ..
        · split
          · split
            · exact immediateReply_steady ..
            · exact refl s
          · split
            · exact refl s
            · split
              · exact immediateReply_steady ..
              · next h => exact queueItem_steady _ _ (Nat.lt_of_not_le h)

theorem requestArrival_steady (r : Request) (s : State) : Steady s (requestArrival r s) := by
  unfold requestArrival; split
  · exact (emptyMemoOnArrival_steady ..).trans (judgeRequest_steady ..)
  · exact refl s

/-- Where an item leaves the queue, its slot is freed or taken by its reply (R112, R126). -/
theorem leaveQueue_steady (item : WorkItem) (s : State) (r : List QueuedReply)
    (hi : r.countP (fun q => !q.reserved) = 0)
    (h : s.responder.queue.length - 1 + r.countP (fun q => q.reserved) ≤ s.responder.slottedItems) :
    Steady s (leaveQueue item { s with trunk := { s.trunk with replies := s.trunk.replies ++ r } }) := by
  unfold leaveQueue
  dsimp only
  refine Steady.trans ?_ ((testWindow_steady ..).trans (executeHead_steady _))
  refine ⟨⟨fun ⟨h1, h2, h3, h4⟩ => ⟨h1, h2, ?_, ?_⟩, id, id⟩, rfl, fun _ h => ⟨rfl, h⟩⟩
  · simpa [State.immediateTaken, List.countP_append, hi] using h3
  · simp only [State.reservedTaken] at h4
    simp only [State.reservedTaken, List.countP_append]
    have left : Responder.slottedItems { s.responder with queue := s.responder.queue.tail, execution := none } =
        s.responder.queue.length - 1 := by simp [Responder.slottedItems]
    rw [left]
    omega

theorem writeMemo_responder (item : WorkItem) (r : ItemResult) (s : State) :
    ∃ m, writeMemo item r s = { s with responder := { s.responder with memos := m } } := by
  unfold writeMemo; split
  · exact ⟨_, rfl⟩
  · exact ⟨s.responder.memos, rfl⟩

theorem completeItem_steady (item : WorkItem) (e : Execution) (r : ItemResult) (s : State)
    (he : s.responder.execution = some e) (hq : s.responder.queue ≠ []) : Steady s (completeItem item e r s) := by
  unfold completeItem; split
  · next hd =>
    have h := leaveQueue_steady item s [] rfl (by simp [Responder.slottedItems, he, hd])
    rwa [List.append_nil] at h
  · next hd =>
    have hl := List.length_pos_of_ne_nil hq
    have written (u : State) (m) :
        Steady u { u with responder := { u.responder with memos := m } } := setResponder_steady _ u (Nat.le_refl _)
    obtain ⟨m, hm⟩ := writeMemo_responder item r (placeReply (item.reply r) true s)
    rw [hm]
    refine (written s m).trans (leaveQueue_steady item _ [⟨item.reply r, true, 0⟩] rfl ?_)
    simp [Responder.slottedItems, he, hd]; omega

theorem setMemory_steady (x : MemoryUnit) (s : State) : Steady s { s with memory := x } :=
  ⟨⟨id, id, id⟩, rfl, fun _ h => ⟨rfl, h⟩⟩

theorem setItemStage_steady (e : Execution) (stage : ItemStage) (s : State) (he : s.responder.execution = some e) :
    Steady s (setItemStage e stage s) :=
  setResponder_steady _ s (by simp [Responder.slottedItems, he])

theorem responderResponse_steady (error : Bool) (words : List Word) (s : State) :
    Steady s (responderResponse error words s) := by
  unfold responderResponse
  dsimp only
  split
  · next e item rest he hq =>
    have ends (r : ItemResult) : Steady s (completeItem item e r s) :=
      completeItem_steady item e r s he (by rw [hq]; exact List.cons_ne_nil item rest)
    have unlocked (r : ItemResult) : Steady s (completeItem item e r (unlockBus s)) :=
      (setMemory_steady _ s).trans (completeItem_steady item e r (unlockBus s) he (by
        show s.responder.queue ≠ []; rw [hq]; exact List.cons_ne_nil item rest))
    split
    · split
      · exact ends _
      · split
        · exact setItemStage_steady e _ s he
        · exact ends _
    · split
      · exact ends _
      · split
        · exact setItemStage_steady e _ s he
        · exact ends _
    · split
      · exact unlocked _
      · split
        · exact (setItemStage_steady e _ s he).trans (setMemory_steady ..)
        · exact unlocked _
    · split
      · exact unlocked _
      · exact unlocked _
  · exact refl s

theorem responderPeerLost_steady (a : Nat) (s : State) : Steady s (responderPeerLost a s) := by
  have items : Steady s { s with
      responder := { s.responder with queue := s.responder.queue.map (WorkItem.loseSource a) } } :=
    setResponder_steady _ s (by simp [Responder.slottedItems])
  unfold responderPeerLost
  dsimp only
  split
  · exact items.trans (setMemo_steady ..)
  · exact items

theorem peerLost_steady (a : Nat) (s : State) : Steady s (peerLost a s) :=
  (foldl (tagPeerLost_steady a) _ s).trans (responderPeerLost_steady ..)

theorem markBegun_steady (b : Burst) (s : State) : Steady s (markBegun b s) := by
  unfold markBegun
  dsimp only
  split
  · exact refl s
  · split
    · exact setMemory_steady ..
    · exact refl s
  · next c _ =>
    refine (setChannel_steady c _ s (.inr ?_)).trans (setMemory_steady ..)
    rintro d hd rfl
    have kept : (s.channel c).preparation.map Preparation.begin = (s.channel c).preparation := by
      simp [hd.preparation.1]
    rw [kept]
  · next c _ =>
    refine (setChannel_steady c _ s (.inr ?_)).trans (setMemory_steady ..)
    rintro d hd rfl
    have none := hd.preparation.2
    split
    · next hw => exact nomatch hw.symm.trans none
    · next hw => rw [← hw]

theorem grantBus_steady (s : State) : Steady s (grantBus s) := by
  unfold grantBus; split
  · exact refl s
  · split
    · exact refl s
    · split
      · exact refl s
      · exact (setMemory_steady ..).trans (markBegun_steady ..)

end Sys2Proof.Machine

/-! PROOFS. What station control and the trunk interface keep, and the changes of the station state that they make (R145 to
R160). -/

namespace Sys2Proof.Machine

set_option Elab.async false

/-- Beside the bounds, the station state makes none but the spec's changes, and the channels HALTED at rest stay. -/
structure Lawful (s t : State) : Prop extends Bounded s t where
  moves : s.StationSound → s.station.state.mayBecome t.station.state = true
  rests : ∀ c, s.haltedAtRest c → t.channel c = s.channel c ∧ t.haltedAtRest c

theorem StationState.mayBecome_self (a : StationState) : a.mayBecome a = true := by cases a <;> rfl

theorem Steady.lawful {s t : State} (h : Steady s t) : Lawful s t :=
  ⟨h.toBounded, fun _ => by rw [h.state]; exact StationState.mayBecome_self _, h.rests⟩

theorem Steady.trans_lawful {s t u : State} (h : Steady s t) (k : Lawful t u) : Lawful s u := by
  refine ⟨h.toBounded.trans k.toBounded, fun hs => h.state ▸ k.moves (h.sound hs), fun c hc => ?_⟩
  obtain ⟨e, ht⟩ := h.rests c hc
  obtain ⟨e', hu⟩ := k.rests c ht
  exact ⟨e'.trans e, hu⟩

open Steady

/-! ## Presence and the roster -/

/-- An update of station control that keeps the address, the state and the roster, and makes no farewell pending. -/
theorem setStation_steady (x : Station) (s : State)
    (hp : ∀ p, x.pending = some p → p.leaving = true →
      (∃ q, s.station.pending = some q ∧ q.leaving = true) ∨ s.station.state = .leaving)
    (hs : x.strap = s.station.strap := by rfl) (hst : x.state = s.station.state := by rfl)
    (hr : x.roster = s.station.roster := by rfl) :
    Steady s { s with station := x } := by
  refine ⟨⟨id, id, fun ⟨h1, h2, h3⟩ => ⟨?_, ?_, fun p hx hl => ?_⟩⟩, hst, fun _ h => ⟨rfl, h⟩⟩
  · simpa only [State.peer, State.ownAddress, hr, hs] using h1
  · simpa only [State.peer, hr, hst] using h2
  · show x.state = _
    rw [hst]
    obtain ⟨q, hq, hql⟩ | h := hp p hx hl
    · exact h3 q hq hql
    · exact h

theorem setLine_steady (l : Option Try) (s : State) : Steady s { s with trunk := { s.trunk with line := l } } :=
  ⟨⟨id, id, id⟩, rfl, fun _ h => ⟨rfl, h⟩⟩

theorem makePresence_steady (leaving : Bool) (s : State) (h : leaving = true → s.station.state = .leaving) :
    Steady s (makePresence leaving s) := by
  unfold makePresence
  dsimp only
  generalize s.trunk.line.map _ = line
  refine Steady.trans (setLine_steady line s) (setStation_steady _ _ fun p hp hl => .inr (h ?_))
  obtain rfl := Option.some.inj hp
  exact hl

theorem startPresenceTimer_steady (s : State) : Steady s (startPresenceTimer s) :=
  setStation_steady _ s fun p hp hl => .inl ⟨p, hp, hl⟩

theorem ordinaryPresence_steady (s : State) : Steady s (ordinaryPresence s) := by
  unfold ordinaryPresence; split
  · exact Steady.refl s
  · exact (makePresence_steady false s nofun).trans (startPresenceTimer_steady _)

theorem maskChanged_steady (s : State) : Steady s (maskChanged s) := by
  unfold maskChanged; split
  · exact ordinaryPresence_steady s
  · exact Steady.refl s

theorem presenceExpired_steady (s : State) : Steady s (presenceExpired s) := by
  unfold presenceExpired; split
  · exact ordinaryPresence_steady s
  · exact Steady.refl s

theorem offerFarewell_steady (s : State) : Steady s (offerFarewell s) := by
  unfold offerFarewell; split
  · next h =>
    simp only [Bool.and_eq_true, decide_eq_true_eq] at h
    exact (makePresence_steady true s fun _ => h.1.1).trans
      (setStation_steady _ _ fun p hp hl => .inl ⟨p, hp, hl⟩)
  · exact Steady.refl s

/-- An update of a roster entry that makes PRESENT only another station's, and none in OFFLINE or EXCLUDED. -/
theorem setPeer_steady (i : Fin 40) (x : Peer) (s : State)
    (h : x.present = true → (s.peer i).present = true ∨
      (i.val + 1 ≠ s.ownAddress ∧ s.station.state ≠ .offline ∧ s.station.state ≠ .excluded)) :
    Steady s (s.setPeer i x) := by
  refine ⟨⟨id, id, fun ⟨h1, h2, h3⟩ => ⟨fun j hj => ?_, fun ho j => ?_, h3⟩⟩, rfl, fun _ h => ⟨rfl, h⟩⟩
  · rw [State.setPeer_peer] at hj
    split at hj
    · next e =>
      subst e
      obtain h | h := h hj
      · exact h1 i h
      · exact h.1
    · exact h1 j hj
  · rw [State.setPeer_peer]
    split
    · have absent : (s.peer i).present = false := h2 ho i
      rw [← Bool.not_eq_true]
      intro hx
      obtain h | ⟨-, h, h'⟩ := h hx
      · rw [absent] at h; cases h
      · exact ho.elim h h'
    · exact h2 ho j

theorem clearRoster_steady (s : State) : Steady s (clearRoster s) := by
  have absent (i : Fin 40) : ((clearRoster s).peer i).present = false := by simp [clearRoster, State.peer, Peer.reset]
  refine ⟨⟨id, id, fun ⟨_, _, h3⟩ => ⟨fun i hi => ?_, fun _ => absent, h3⟩⟩, rfl, fun _ h => ⟨rfl, h⟩⟩
  rw [absent i] at hi; cases hi

theorem restartSilence_steady (a : Nat) (s : State) : Steady s (restartSilence a s) := by
  unfold restartSilence; split
  · split
    · exact setPeer_steady _ _ s .inl
    · exact Steady.refl s
  · exact Steady.refl s

theorem silenceExpired_steady (a : Nat) (s : State) : Steady s (silenceExpired a s) := by
  unfold silenceExpired
  dsimp only
  split
  · split
    · exact (setPeer_steady _ _ s (by exact nofun)).trans ((peerLost_steady ..).trans (offerDroppable_steady ..))
    · exact Steady.refl s
  · exact Steady.refl s

theorem stationIndex_eq_some {a : Nat} {i : Fin 40} (h : stationIndex a = some i) : a = i.val + 1 := by
  unfold stationIndex at h
  split at h
  · obtain rfl := Option.some.inj h
    dsimp only; omega
  · cases h

theorem presenceArrival_steady (p : ReceivedPresence) (s : State) (own : p.source ≠ s.ownAddress) :
    Steady s (presenceArrival p s) := by
  unfold presenceArrival
  dsimp only
  split
  · next h =>
    have away : s.station.state ≠ .offline ∧ s.station.state ≠ .excluded := by
      simp only [State.onTrunk, Bool.or_eq_true, decide_eq_true_eq] at h
      rcases h with h | h | h <;> simp [h]
    split
    · exact Steady.refl s
    · next i hi =>
      have other : i.val + 1 ≠ s.ownAddress := stationIndex_eq_some hi ▸ own
      have written (x : Peer) : Steady s (s.setPeer i x) := setPeer_steady i x s fun _ => .inr ⟨other, away⟩
      split
      · split
        · exact Steady.refl s
        · exact (written _).trans (offerDroppable_steady ..)
      · split
        · exact (written _).trans ((peerLost_steady ..).trans (offerDroppable_steady ..))
        · split
          · exact (written _).trans ((peerLost_steady ..).trans
              ((offerDroppable_steady ..).trans (offerDroppable_steady ..)))
          · exact written _
  · exact Steady.refl s

/-! ## Transitions of the station state -/

/-- A station with no peer PRESENT and no presence pending is sound. -/
theorem stationSound_of_cleared {t : State} (hr : ∀ i, t.peer i = Peer.reset) (hp : t.station.pending = none) :
    t.StationSound := by
  refine ⟨fun i hi => ?_, fun _ i => by rw [hr i]; rfl, fun p h => ?_⟩
  · rw [hr i] at hi; cases hi
  · rw [hp] at h; cases h

/-- A return to OFFLINE keeps the bounds and the channels at rest. -/
theorem returnOffline_bounded (e : StationEvent) (s : State) :
    Bounded s (returnOffline e s) ∧
      ∀ c, s.haltedAtRest c → (returnOffline e s).channel c = s.channel c ∧ (returnOffline e s).haltedAtRest c := by
  obtain ⟨-, -, -, -, -, pending, -, -, -, roster, -, trunk, -, -, ⟨-, channels, -⟩, -⟩ := returnOffline_returnedOffline e s
  refine ⟨⟨fun ⟨h1, h2, _, h4⟩ => ⟨h1, h2, ?_, ?_⟩, id, fun _ => stationSound_of_cleared roster pending⟩,
    fun c hc => ?_⟩
  · simp [State.immediateTaken, trunk]
  · have slots : (returnOffline e s).responder.slottedItems = s.responder.slottedItems := rfl
    simp only [State.reservedTaken] at h4
    simp only [State.reservedTaken, trunk, slots, List.countP_nil]
    omega
  · refine Apart.rests ⟨by simp only [State.channel, channels], fun k hk => ?_⟩ hc
    have kept : ((returnOffline e s).tag k).owner = (s.tag k).owner := by
      simp only [returnOffline, raiseStation, State.tag, mapAll, Tag.endCooling, Fin.getElem_fin, Vector.getElem_ofFn]
      split <;> rfl
    rw [kept]; exact hk

theorem testWindows_slottedItems (s : State) : (testWindows s).responder.slottedItems = s.responder.slottedItems := by
  obtain ⟨ws, e, -⟩ := testWindows_eq s
  rw [e]; rfl

/-- An exclusion leaves at most the discarded item that executes, which holds no slot (R126). -/
theorem excludeResponder_slottedItems (s : State) : (excludeResponder s).responder.slottedItems = 0 := by
  cases hx : s.responder.execution with
  | none => simp [Responder.slottedItems, excludeResponder, clearMemos, hx]
  | some x => simp [Responder.slottedItems, excludeResponder, clearMemos, hx]

theorem exclude_slottedItems (s : State) : (exclude s).responder.slottedItems = 0 := by
  have slots (u : State) : (raiseStation .excluded (testWindows (clearRoster u))).responder.slottedItems =
      u.responder.slottedItems := testWindows_slottedItems (clearRoster u)
  unfold exclude
  exact (slots _).trans (excludeResponder_slottedItems _)

theorem exclude_bounded (s : State) :
    Bounded s (exclude s) ∧
      ∀ c, s.haltedAtRest c → (exclude s).channel c = s.channel c ∧ (exclude s).haltedAtRest c := by
  obtain ⟨-, -, -, -, pending, -, -, -, -, roster, -, trunk, notices, -, tags, -, -, others, -, -, -, -, -, -, counters,
    writer, -⟩ := exclude_excluded s
  refine ⟨⟨fun ⟨h1, h2, _, _⟩ => ⟨?_, ?_, ?_, ?_⟩, fun h => ?_, fun _ => stationSound_of_cleared roster pending⟩,
    fun c hc => ?_⟩
  · rw [notices]; exact Nat.zero_le _
  · rw [writer]; exact h2
  · simp [State.immediateTaken, trunk]
  · simp [State.reservedTaken, trunk, exclude_slottedItems]
  · simpa only [State.CountersSound, State.booking, counters, writer, notices] using h
  · refine Apart.rests ⟨others c (.inr (.inr hc.state)), fun k _ => ?_⟩ hc
    rw [tags k]; exact nofun

theorem addressConflict_lawful (s : State) : Lawful s (addressConflict s) := by
  unfold addressConflict
  split
  · exact (Steady.refl s).lawful
  · exact (Steady.refl s).lawful
  · next h =>
    obtain ⟨bounded, rests⟩ := returnOffline_bounded .joinFailed s
    exact ⟨bounded, fun _ => by rw [h]; rfl, rests⟩
  · next h =>
    obtain ⟨bounded, rests⟩ := exclude_bounded s
    exact ⟨bounded, fun _ => by rw [h, (exclude_excluded s).1]; rfl, rests⟩
  · next h =>
    obtain ⟨bounded, rests⟩ := exclude_bounded s
    exact ⟨bounded, fun _ => by rw [h, (exclude_excluded s).1]; rfl, rests⟩

/-- A change of the station state outside OFFLINE and EXCLUDED that ends no farewell keeps a sound station. -/
theorem setState_bounded (x : Station) (s : State) (hs : x.strap = s.station.strap) (hr : x.roster = s.station.roster)
    (hp : x.pending = s.station.pending) (hx : x.state ≠ .offline ∧ x.state ≠ .excluded)
    (hl : s.station.state ≠ .leaving) : Bounded s { s with station := x } := by
  refine ⟨id, id, fun ⟨h1, _, h3⟩ => ⟨?_, fun h => absurd h (not_or.mpr hx), fun p hq hpl => ?_⟩⟩
  · simpa only [State.peer, State.ownAddress, hr, hs] using h1
  · exact absurd (h3 p (hp ▸ hq) hpl) hl

theorem listeningExpired_lawful (s : State) : Lawful s (listeningExpired s) := by
  unfold listeningExpired
  split
  · next h =>
    rw [Bool.and_eq_true, decide_eq_true_eq] at h
    have joins : Bounded s { s with station := { s.station with
        state := .joined, listeningTimer := .stopped, fresh := true } } :=
      setState_bounded _ s rfl rfl rfl ⟨nofun, nofun⟩ (by rw [h.1]; decide)
    have rest := (raiseStation_steady .joined { s with station := { s.station with
        state := .joined, listeningTimer := .stopped, fresh := true } }).trans
      ((makePresence_steady false _ nofun).trans (startPresenceTimer_steady _))
    exact ⟨joins.trans rest.toBounded, fun _ => by rw [rest.state, h.1]; rfl, fun c hc => rest.rests c hc⟩
  · exact (Steady.refl s).lawful

theorem beginLeave_lawful (s : State) (h : s.station.state = .joined) : Lawful s (beginLeave s) := by
  have leaves : Bounded s { s with station := { s.station with state := .leaving } } :=
    setState_bounded _ s rfl rfl rfl ⟨nofun, nofun⟩ (by rw [h]; decide)
  have rest := Steady.foldl (f := fun s c => leaveChannel c s) (fun s c => leaveChannel_steady c s) (List.finRange 4)
    { s with station := { s.station with state := .leaving } }
  exact ⟨leaves.trans rest.toBounded, fun _ => by rw [beginLeave, rest.state, h]; rfl, fun c hc => rest.rests c hc⟩

theorem beginListening_lawful (s : State) (h : s.station.state = .offline) : Lawful s (beginListening s) :=
  ⟨setState_bounded _ s rfl rfl rfl ⟨nofun, nofun⟩ (by rw [h]; decide), fun _ => by rw [h]; rfl, fun _ hc => ⟨rfl, hc⟩⟩

/-! ## The trunk interface -/

/-- An update of the trunk interface that takes no further reply slot. -/
theorem setTrunk_steady (x : Trunk) (s : State)
    (hr : x.replies.countP (fun q => q.reserved) ≤ s.trunk.replies.countP (fun q => q.reserved) := by
      exact Nat.le_refl _)
    (hi : x.replies.countP (fun q => !q.reserved) ≤ s.trunk.replies.countP (fun q => !q.reserved) := by
      exact Nat.le_refl _) :
    Steady s { s with trunk := x } := by
  refine ⟨⟨fun ⟨h1, h2, h3, h4⟩ => ⟨h1, h2, Nat.le_trans hi h3, ?_⟩, id, id⟩, rfl, fun _ h => ⟨rfl, h⟩⟩
  exact Nat.le_trans (Nat.add_le_add_left hr _) h4

theorem countTry_steady (f : TryFrame) (s : State) : Steady s (countTry f s) := by
  unfold countTry
  split
  · refine setTrunk_steady _ s ?_ ?_ <;> split <;> simp_all [List.countP_cons]
  · refine setStation_steady _ s fun p hp hl => .inl ?_
    obtain ⟨q, hq, rfl⟩ := Option.map_eq_some_iff.mp hp
    exact ⟨q, hq, hl⟩
  · refine setNotices_steady _ s ?_ rfl
    dsimp only
    split <;> simp_all
  · exact setTag_steady _ _ s (by rfl)

theorem beginTry_steady (f : TryFrame) (bytes : List Byte) (s : State) : Steady s (beginTry f bytes s) :=
  (countTry_steady f s).trans (setTrunk_steady _ _)

theorem contend_steady (rival : Option Byte) (s : State) : Steady s (contend rival s) := by
  unfold contend; split
  · exact Steady.refl s
  · split
    · split
      · exact beginTry_steady ..
      · exact Steady.refl s
    · split
      · exact Steady.refl s
      · exact setTrunk_steady _ s

theorem countAbandoned_steady (s : State) : Steady s (countAbandoned s) :=
  ⟨⟨id, fun ⟨h1, h2, h3, _, h5⟩ => ⟨h1, h2, h3, satInc_le _, h5⟩, id⟩, rfl, fun _ h => ⟨rfl, h⟩⟩

theorem countCheckError_steady (s : State) : Steady s (countCheckError s) :=
  ⟨⟨id, fun ⟨_, h2⟩ => ⟨satInc_le _, h2⟩, id⟩, rfl, fun _ h => ⟨rfl, h⟩⟩

theorem popReply_steady (s : State) : Steady s (popReply s) :=
  setTrunk_steady _ s (List.Sublist.countP_le (List.tail_sublist _)) (List.Sublist.countP_le (List.tail_sublist _))

theorem popNotice_steady (complete : Bool) (s : State) : Steady s (popNotice complete s) := by
  unfold popNotice; split
  · next hq => exact Steady.trans (setNotices_steady _ s (by simp [hq]) (by rfl)) (reportNotice_steady ..)
  · exact Steady.refl s

/-- The end of a try leaves the station state, or returns the station to OFFLINE. -/
structure Settled (s t : State) : Prop extends Lawful s t where
  stays : t.station.state = s.station.state ∨ t.station.state = .offline

theorem Steady.settled {s t : State} (h : Steady s t) : Settled s t := ⟨h.lawful, .inl h.state⟩

theorem Steady.trans_settled {s t u : State} (h : Steady s t) (k : Settled t u) : Settled s u :=
  ⟨h.trans_lawful k.toLawful, h.state ▸ k.stays⟩

theorem endPresence_settled (complete : Bool) (s : State) : Settled s (endPresence complete s) := by
  unfold endPresence
  split
  · next p hp =>
    dsimp only
    generalize hu : ({ s with station := _ } : State) = u
    have left : Steady s u := hu ▸ setStation_steady _ s nofun
    split
    · next hl =>
      obtain ⟨bounded, rests⟩ := returnOffline_bounded .left u
      refine ⟨⟨left.toBounded.trans bounded, fun hs => ?_, fun c hc => ?_⟩, .inr rfl⟩
      · rw [hs.2.2 p hp hl]; rfl
      · obtain ⟨e, hu⟩ := left.rests c hc
        obtain ⟨e', ht⟩ := rests c hu
        exact ⟨e'.trans e, ht⟩
    · exact left.settled
  · exact (Steady.refl s).settled

theorem endTransmission_settled (f : TryFrame) (complete : Bool) (s : State) :
    Settled s (endTransmission f complete s) := by
  have passed (u : State) (k : Fin 16) : Steady u (passTag k u) := setTrunk_steady _ u
  unfold endTransmission
  dsimp only
  generalize hu : (if complete = true then s else countAbandoned s) = u
  have counted : Steady s u := by
    rw [← hu]; split
    · exact Steady.refl s
    · exact countAbandoned_steady s
  refine counted.trans_settled ?_
  split
  · next k =>
    split
    · exact ((passed u k).trans (setTag_steady _ _ _ (by rfl))).settled
    · exact (((passed u k).trans (setTag_steady _ _ _ (by rfl))).trans (attemptOutcome_steady ..)).settled
  · exact (popReply_steady u).settled
  · exact (popNotice_steady ..).settled
  · exact endPresence_settled ..

theorem endTry_settled (t : Try) (complete : Bool) (s : State) : Settled s (endTry t complete s) := by
  unfold endTry; split
  · unfold endLiveTry; split
    · exact endTransmission_settled ..
    · split
      · exact endTransmission_settled ..
      · exact (Steady.refl s).settled
  · unfold endWithdrawnTry; split
    · exact Steady.settled (setTrunk_steady _ s)
    · exact (Steady.refl s).settled
  · unfold endReplacedTry; split
    · split
      · exact Steady.settled (setStation_steady _ s fun p hp hl => .inl ⟨p, hp, hl⟩)
      · exact (Steady.refl s).settled
    · exact (Steady.refl s).settled

theorem awaitHearing_steady (t : Try) (complete : Bool) (s : State) : Steady s (awaitHearing t complete s) := by
  unfold awaitHearing; split
  · split
    · exact setNotices_steady _ s (by exact Nat.le_refl _) (by rfl)
    · exact Steady.refl s
  · exact Steady.refl s

theorem tryEnds_lawful (echo : List Byte) (s : State) : Lawful s (tryEnds echo s) := by
  unfold tryEnds
  dsimp only
  split
  · exact (Steady.refl s).lawful
  · next t _ =>
    have ended := ((setLine_steady none s).trans (awaitHearing_steady t (t.echoComplete echo) _)).trans_settled
      (endTry_settled t (t.echoComplete echo) _)
    generalize endTry t (t.echoComplete echo) _ = u at ended
    split
    · have conflict := addressConflict_lawful u
      refine ⟨ended.toBounded.trans conflict.toBounded, fun hs => ?_, fun c hc => ?_⟩
      · obtain stays | offline := ended.stays
        · exact stays ▸ conflict.moves (ended.sound hs)
        · have none : addressConflict u = u := by simp [addressConflict, offline]
          rw [none]; exact ended.moves hs
      · obtain ⟨e, hu⟩ := ended.rests c hc
        obtain ⟨e', ht⟩ := conflict.rests c hu
        exact ⟨e'.trans e, ht⟩
    · exact ended.toLawful

theorem hearOwnNotice_steady (echo : List Byte) (s : State) : Steady s (hearOwnNotice echo s) := by
  unfold hearOwnNotice; split
  · exact Steady.trans (setNotices_steady _ s (by exact Nat.le_refl _) (by rfl)) (noticeArrival_steady ..)
  · split
    · exact Steady.refl s
    · split
      · exact Steady.refl s
      · split
        · exact (setLine_steady _ s).trans (noticeArrival_steady ..)
        · exact Steady.refl s

theorem routeFrame_steady (bytes : List Byte) (s : State) (own : sourceOf bytes ≠ s.ownAddress) :
    Steady s (routeFrame bytes s) := by
  unfold routeFrame
  dsimp only
  split
  · split
    · exact requestArrival_steady ..
    · exact Steady.refl s
  · split
    · exact replyArrival_steady ..
    · exact Steady.refl s
  · split
    · exact noticeArrival_steady ..
    · exact Steady.refl s
  · exact presenceArrival_steady _ s own
  · exact Steady.refl s

theorem receive_lawful (frame : Reception) (s : State) : Lawful s (receive frame s) := by
  have restarted := restartSilence_steady (sourceOf frame.bytes) s
  unfold receive; split
  · exact (Steady.refl s).lawful
  · split
    · exact (countCheckError_steady s).lawful
    · split
      · exact (restarted.trans (countCheckError_steady _)).lawful
      · split
        · exact addressConflict_lawful s
        · next own =>
          have same : (restartSilence (sourceOf frame.bytes) s).ownAddress = s.ownAddress :=
            congrArg BitVec.toNat (restartSilence_quiet (sourceOf frame.bytes) s).strap
          exact (restarted.trans (routeFrame_steady _ _ (by rw [same]; exact own))).lawful

end Sys2Proof.Machine

/-! PROOFS. What a whole step keeps: the list store's form, the event ring, the address and the configuration, beside the
bounds, the station's soundness and the channels at rest (R1, R43, R142, R143, R179). -/

namespace Sys2Proof.Machine

set_option Elab.async false

open Steady

/-! ## The host's side of the state -/

/-- The list store, the address, the configuration, the ring's indices and the record in flight are as they were. -/
structure HostKept (s t : State) : Prop where
  listStore : t.listStore = s.listStore
  strap : t.station.strap = s.station.strap
  config : t.station.config = s.station.config
  producer : t.writer.producer = s.writer.producer
  consumer : t.writer.consumer = s.writer.consumer
  inFlight : t.writer.inFlight = s.writer.inFlight

theorem QuietFrame.hostKept {s t : State} (h : QuietFrame s t) : HostKept s t :=
  ⟨h.listStore, h.strap, h.config, h.producer, h.consumer, h.inFlight⟩

theorem EngineFrame.hostKept {s t : State} (h : EngineFrame s t) : HostKept s t := h.quiet.hostKept

theorem HostKept.storeSound {s t : State} (h : HostKept s t) (hs : s.StoreSound) : t.StoreSound := by
  rw [State.StoreSound, h.listStore]; exact hs

theorem HostKept.ringSound {s t : State} (h : HostKept s t) (hs : s.RingSound) : t.RingSound := by
  simpa only [State.RingSound, State.checkedProducer, State.ringSize, h.config, h.producer, h.consumer, h.inFlight] using hs

/-- What one command's effect keeps, by whether it resets the station, may write the configuration, or commands a
channel. -/
structure Effect (reset configures commands : Bool) (s t : State) : Prop extends Bounded s t where
  store : s.StoreSound → t.StoreSound
  ring : s.RingSound → t.RingSound
  strap : t.station.strap = s.station.strap
  config : reset = false → t.station.config ≠ s.station.config → configures = true ∧ s.station.state = .offline
  resets : reset = true → t.station.state = .offline
  moves : reset = false → s.StationSound → s.station.state.mayBecome t.station.state = true
  rests : reset = false → commands = false → ∀ c, s.haltedAtRest c → t.channel c = s.channel c ∧ t.haltedAtRest c

namespace Effect

theorem of_lawful {configures commands : Bool} {s t : State} (h : HostKept s t) (k : Lawful s t) :
    Effect false configures commands s t :=
  ⟨k.toBounded, h.storeSound, h.ringSound, h.strap, fun _ hc => absurd h.config hc, nofun, fun _ => k.moves,
    fun _ _ => k.rests⟩

theorem of_steady {configures commands : Bool} {s t : State} (h : HostKept s t) (k : Steady s t) :
    Effect false configures commands s t := of_lawful h k.lawful

/-- An operation of the engine that a START, STOP or RESUME does. -/
theorem of_frame {configures : Bool} {s t : State} (h : EngineFrame s t) : Effect false configures true s t := by
  refine ⟨h.bounded, h.hostKept.storeSound, h.hostKept.ringSound, h.hostKept.strap,
    fun _ hc => absurd h.hostKept.config hc, nofun, fun _ _ => ?_, nofun⟩
  rw [h.station]; exact StationState.mayBecome_self _

/-- Of the port, an effect says nothing. -/
theorem setPort {reset configures commands : Bool} {s t : State} (h : Effect reset configures commands s t) (p : Port) :
    Effect reset configures commands s { t with port := p } :=
  ⟨⟨h.queues, h.counters, h.sound⟩, h.store, h.ring, h.strap, h.config, h.resets, h.moves, h.rests⟩

theorem refl (configures commands : Bool) (s : State) : Effect false configures commands s s :=
  of_steady ⟨rfl, rfl, rfl, rfl, rfl, rfl⟩ (Steady.refl s)

theorem port (configures commands : Bool) (s : State) (p : Port) :
    Effect false configures commands s { s with port := p } :=
  (refl configures commands s).setPort p

/-- A command that its block takes at once (R176). -/
theorem issue {configures commands : Bool} {effect : Arguments → State → CommandEffect} {s : State}
    (h : ∀ a, Effect false configures commands s (effect a s).2) :
    Effect false configures commands s (issue effect s) := by
  unfold Machine.issue refuseBusy endCommand
  split
  · exact port ..
  · exact (h _).setPort _

end Effect

/-! ## The event writer -/

/-- An update of the writer that takes no further slot and keeps the drop count's bound. -/
theorem setWriter_steady (x : Writer) (s : State) (hs : x.slots.length ≤ s.writer.slots.length)
    (hd : x.dropCount ≤ max s.writer.dropCount 65535) : Steady s { s with writer := x } := by
  refine ⟨⟨fun ⟨h1, h2, h3, h4⟩ => ⟨h1, Nat.le_trans hs h2, h3, h4⟩, fun ⟨h1, h2, h3, h4, h5, h6, h7⟩ => ?_, id⟩, rfl,
    fun _ h => ⟨rfl, h⟩⟩
  exact ⟨h1, h2, h3, h4, h5, by dsimp only; omega, h7⟩

theorem resetRing_steady (s : State) : Steady s (resetRing s) :=
  setWriter_steady _ s (by exact Nat.le_refl _) (by exact Nat.le_max_left ..)

/-- With the indices 0 and no record write in flight the ring is empty. -/
theorem resetRing_ringSound (s : State) (h : s.writer.inFlight = none) : (resetRing s).RingSound := by
  simp [State.RingSound, State.checkedProducer, resetRing, h]

theorem eventRingReset_effect {configures commands : Bool} (s : State) (h : s.writer.inFlight = none) :
    Effect false configures commands s (eventRingReset s) where
  queues := fun ⟨h1, _, h3, h4⟩ => ⟨h1, Nat.zero_le _, h3, h4⟩
  counters := fun ⟨h1, h2, h3, h4, _, _, h7⟩ => ⟨h1, h2, h3, h4, satAdd_le .., satAdd_le .., h7⟩
  sound := id
  store := id
  ring _ := resetRing_ringSound _ h
  strap := rfl
  config _ hc := absurd rfl hc
  resets := nofun
  moves _ _ := StationState.mayBecome_self _
  rests _ _ _ hc := ⟨rfl, hc⟩

theorem countersClear_steady (s : State) : Steady s (takeCountersClear s).2 :=
  ⟨⟨id, fun ⟨_, _, _, _, _, h6, h7⟩ => ⟨Nat.zero_le _, Nat.zero_le _, Nat.zero_le _, Nat.zero_le _, Nat.zero_le _, h6, h7⟩,
    id⟩, rfl, fun _ h => ⟨rfl, h⟩⟩

/-- An effect on the writer alone that keeps the ring sound. -/
theorem Effect.of_writer {configures commands : Bool} {s : State} (x : Writer)
    (k : Steady s { s with writer := x }) (hr : s.RingSound → ({ s with writer := x } : State).RingSound) :
    Effect false configures commands s { s with writer := x } :=
  ⟨k.toBounded, id, hr, rfl, fun _ hc => absurd rfl hc, nofun, fun _ => k.lawful.moves, fun _ _ => k.rests⟩

theorem writeConsumer_effect {configures commands : Bool} (value : Word) (s : State) :
    Effect false configures commands s (writeConsumer value s) := by
  unfold writeConsumer
  dsimp only
  split
  · next h =>
    refine .of_writer _ (setWriter_steady _ s (by exact Nat.le_refl _) (by exact Nat.le_max_left ..)) fun _ => .inl ?_
    exact of_decide_eq_true h
  · exact .of_steady ⟨rfl, rfl, rfl, rfl, rfl, rfl⟩
      (setWriter_steady _ s (by exact Nat.le_refl _) (by exact Nat.le_max_left ..))

/-- One more record counted as placed fits a ring that is not full. -/
theorem ringSound_begin {p c : BitVec 16} {n : Nat} (hfull : (p - c).toNat < n) : (p + 1 - c).toNat ≤ n := by
  bv_omega

/-- A record that fitted the ring counted as placed fits it uncounted, but for the one that the host released. -/
theorem ringSound_unplaced {p c : BitVec 16} {n : Nat} (h : (p + 1 - c).toNat ≤ n) : (p - c).toNat ≤ n ∨ c = p + 1 := by
  by_cases e : c = p + 1
  · exact .inr e
  · left; bv_omega

theorem beginWrite_effect {configures commands : Bool} (s : State) :
    Effect false configures commands s (beginWrite s) := by
  have begins (r : RecordWrite) (last : Fin 22) (h : s.writerFree = true) :
      Effect false configures commands s { s with writer := { s.writer with inFlight := some r, lastServed := last } } := by
    refine .of_writer _ (setWriter_steady _ s (by exact Nat.le_refl _) (by exact Nat.le_max_left ..)) fun _ => .inl ?_
    simp only [State.writerFree, Bool.and_eq_true, decide_eq_true_eq] at h
    exact ringSound_begin h.2
  unfold beginWrite
  split
  · exact .refl ..
  · next hf =>
    have free : s.writerFree = true := by simpa using hf
    split
    · exact begins _ s.writer.lastServed free
    · split
      · exact .refl ..
      · split
        · exact .refl ..
        · exact begins _ _ free

theorem windowPlaced_steady (i : Fin 16) (s : State) : Steady s (windowPlaced i s) := by
  unfold windowPlaced
  dsimp only
  split <;> exact setWindow_steady ..

theorem windowPlaced_quiet (i : Fin 16) (s : State) : QuietFrame s (windowPlaced i s) := by
  unfold windowPlaced
  dsimp only
  split <;> exact setWindow_quiet ..

theorem sourcePlaced_steady (i : Fin 22) (s : State) : Steady s (sourcePlaced i s) := by
  unfold sourcePlaced
  split
  · exact heldPlaced_steady ..
  · split
    · exact windowPlaced_steady ..
    · split
      · exact setStation_steady _ s fun p hp hl => .inl ⟨p, hp, hl⟩
      · exact setWriter_steady _ s (by simp) (by exact Nat.le_max_left ..)

theorem sourcePlaced_hostKept (i : Fin 22) (s : State) : HostKept s (sourcePlaced i s) := by
  unfold sourcePlaced
  split
  · exact (heldPlaced_frame ..).hostKept
  · split
    · exact (windowPlaced_quiet ..).hostKept
    · split <;> exact ⟨rfl, rfl, rfl, rfl, rfl, rfl⟩

/-- The ring after a record write has ended, complete or not (R184, R187; log entry 32). -/
theorem ringSound_of_ended {s : State} {r : RecordWrite} (hr : s.writer.inFlight = some r) (h : s.RingSound) :
    (s.writer.producer - s.writer.consumer).toNat ≤ s.ringSize ∨ s.writer.consumer = s.writer.producer + 1 := by
  simp only [State.RingSound, State.checkedProducer, hr, Option.isSome_some, if_true] at h
  exact h.elim ringSound_unplaced .inr

theorem ringSound_of_placed {s : State} {r : RecordWrite} (hr : s.writer.inFlight = some r) (h : s.RingSound) :
    (s.writer.producer + 1 - s.writer.consumer).toNat ≤ s.ringSize := by
  simp only [State.RingSound, State.checkedProducer, hr, Option.isSome_some, if_true] at h
  obtain h | h := h
  · exact h
  · simp [h]

/-- A steady operation that keeps the host's side may follow. -/
theorem Effect.trans_steady {configures commands : Bool} {s t u : State} (h : Effect false configures commands s t)
    (k : HostKept t u) (l : Steady t u) : Effect false configures commands s u where
  toBounded := h.toBounded.trans l.toBounded
  store := k.storeSound ∘ h.store
  ring := k.ringSound ∘ h.ring
  strap := k.strap.trans h.strap
  config := k.config ▸ h.config
  resets := nofun
  moves := l.state ▸ h.moves
  rests hr hc c hs := by
    obtain ⟨e, ht⟩ := h.rests hr hc c hs
    obtain ⟨e', hu⟩ := l.rests c ht
    exact ⟨e'.trans e, hu⟩

theorem recordEnded_effect {configures commands : Bool} {r : RecordWrite} (error : Bool) {s : State}
    (hr : s.writer.inFlight = some r) : Effect false configures commands s (recordEnded r error s) := by
  unfold recordEnded
  split
  · exact .of_writer _ (setWriter_steady _ s (by exact Nat.le_refl _) (by exact Nat.le_max_left ..))
      (ringSound_of_ended hr)
  · have placed (n : Nat) (hn : n ≤ s.writer.dropCount) : Effect false configures commands s { s with
        writer := { s.writer with inFlight := none, producer := s.writer.producer + 1, dropCount := n } } :=
      .of_writer _ (setWriter_steady _ s (by exact Nat.le_refl _) (Nat.le_trans hn (Nat.le_max_left ..)))
        fun h => .inl (ringSound_of_placed hr h)
    dsimp only
    split
    · exact (placed _ (Nat.le_refl _)).trans_steady (sourcePlaced_hostKept ..) (sourcePlaced_steady ..)
    · exact placed _ (Nat.sub_le ..)

theorem burstEnds_effect {configures commands : Bool} (error : Bool) (data : Vector Word 16) (s : State) :
    Effect false configures commands s (burstEnds error data s) := by
  have idle : Steady s { s with memory := { s.memory with burst := none } } := setMemory_steady _ s
  have kept : HostKept s { s with memory := { s.memory with burst := none } } := (setMemory_quiet ..).hostKept
  have freed : Effect false configures commands s { s with memory := { s.memory with burst := none } } :=
    .of_steady kept idle
  unfold burstEnds
  split
  · exact .refl ..
  · dsimp only
    split
    · unfold writerResponse
      split
      · next r hr =>
        have ended := recordEnded_effect (configures := configures) (commands := commands) error
          (s := { s with memory := { s.memory with burst := none } }) hr
        exact ⟨idle.toBounded.trans ended.toBounded, ended.store, ended.ring, ended.strap, ended.config, ended.resets,
          ended.moves, ended.rests⟩
      · exact freed
    · exact freed.trans_steady (responderResponse_quiet ..).hostKept (responderResponse_steady ..)
    · exact freed.trans_steady (preparationResponse_frame ..).hostKept (preparationResponse_steady ..)
    · exact freed.trans_steady (completionResponse_frame ..).hostKept (completionResponse_steady ..)

/-! ## The host commands -/

theorem takeConfigure_effect {commands : Bool} (a : Arguments) (s : State)
    (h : a.configuration.isSome = true → s.writer.inFlight = none) :
    Effect false true commands s (takeConfigure a s).2 := by
  unfold takeConfigure
  split
  · exact .refl ..
  · next config hc =>
    split
    · next off =>
      have written : Steady s { s with station := { s.station with config := config } } :=
        setStation_steady _ s fun p hp hl => .inl ⟨p, hp, hl⟩
      have steady := written.trans (resetRing_steady _)
      have free : s.writer.inFlight = none := h (by rw [hc]; rfl)
      exact ⟨steady.toBounded, id, fun _ => resetRing_ringSound _ free, rfl, fun _ _ => ⟨rfl, off⟩, nofun,
        fun _ => steady.lawful.moves, fun _ _ => steady.rests⟩
    · exact .refl ..

theorem issueConfigure_effect {commands : Bool} (s : State) : Effect false true commands s (issueConfigure s) := by
  unfold issueConfigure refuseBusy waitForWrite endCommand
  split
  · exact .port ..
  · split
    · exact .port ..
    · next h =>
      refine (takeConfigure_effect _ s fun hc => ?_).setPort _
      rw [hc] at h
      simpa using h

theorem issueRingReset_effect {configures commands : Bool} (s : State) :
    Effect false configures commands s (issueRingReset s) := by
  unfold issueRingReset refuseBusy waitForWrite endCommand takeEventRingReset
  split
  · exact .port ..
  · split
    · exact .port ..
    · next h => exact (eventRingReset_effect s (by simpa using h)).setPort _

theorem takeWaiting_effect {commands : Bool} (s : State) : Effect false true commands s (takeWaiting s) := by
  unfold takeWaiting endCommand takeEventRingReset
  split
  · exact .refl ..
  · next h =>
    have free : s.writer.inFlight = none := by simpa using h
    split
    · exact .refl ..
    · exact (takeConfigure_effect _ s fun _ => free).setPort _
    · exact (eventRingReset_effect s free).setPort _

theorem takeJoin_effect {configures commands : Bool} (s : State) :
    Effect false configures commands s (takeJoin s).2 := by
  unfold takeJoin
  split
  · exact .refl ..
  · next h =>
    split
    · exact .refl ..
    · refine .of_lawful (beginListening_quiet s).hostKept (beginListening_lawful s ?_)
      simp only [Bool.or_eq_true, decide_eq_true_eq, not_or, Decidable.not_not] at h
      exact h.1.1

theorem returnOffline_lawful (e : StationEvent) {s : State}
    (h : s.station.state = .listening ∨ s.station.state = .excluded) : Lawful s (returnOffline e s) := by
  obtain ⟨bounded, rests⟩ := returnOffline_bounded e s
  refine ⟨bounded, fun _ => ?_, rests⟩
  obtain h | h := h <;> rw [h] <;> rfl

theorem takeLeave_effect {configures commands : Bool} (s : State) :
    Effect false configures commands s (takeLeave s).2 := by
  unfold takeLeave
  split
  · exact .refl ..
  · next h => exact .of_lawful (returnOffline_quiet ..).hostKept (returnOffline_lawful _ (.inl h))
  · next h => exact .of_lawful (beginLeave_quiet s).hostKept (beginLeave_lawful s h)
  · exact .refl ..
  · next h => exact .of_lawful (returnOffline_quiet ..).hostKept (returnOffline_lawful _ (.inr h))

theorem takeStart_effect {configures : Bool} (a : Arguments) (s : State) :
    Effect false configures true s (takeStart a s).2 := by
  unfold takeStart
  split
  · exact .refl ..
  · split
    · exact .refl ..
    · split
      · exact .refl ..
      · split
        · exact .of_frame (startChannel_frame ..)
        · exact .of_frame (startChannel_frame ..)
        · exact .refl ..

theorem takeStop_effect {configures : Bool} (a : Arguments) (s : State) :
    Effect false configures true s (takeStop a s).2 := by
  unfold takeStop
  split
  · exact .refl ..
  · split <;> dsimp only
    · exact .refl ..
    · exact .of_frame (stopChannel_frame ..)
    · exact .of_frame (stopChannel_frame ..)
    · exact .refl ..
    · exact .refl ..
    · exact .refl ..
    · exact .of_frame (setChannel_frame ..)

theorem takeResume_effect {configures : Bool} (a : Arguments) (s : State) :
    Effect false configures true s (takeResume a s).2 := by
  unfold takeResume
  split
  · exact .refl ..
  · split
    · exact .refl ..
    · split
      · exact .of_frame (resumeChannel_frame ..)
      · exact .refl ..
      · exact .refl ..

section Blocks
variable {configures commands : Bool}

theorem takeWindowSet_effect (a : Arguments) (s : State) : Effect false configures commands s (takeWindowSet a s).2 := by
  unfold takeWindowSet
  split
  · exact .refl ..
  · dsimp only
    split
    · exact .refl ..
    · split
      · exact .refl ..
      · exact .of_steady ((setWindow_quiet ..).trans (maskChanged_quiet _)).hostKept
          ((setWindow_steady ..).trans (maskChanged_steady _))

theorem takeHold_effect (a : Arguments) (s : State) : Effect false configures commands s (takeHold a s).2 := by
  unfold takeHold
  split
  · exact .refl ..
  · dsimp only
    split
    · exact .of_steady ((setWindow_quiet ..).trans (testWindow_quiet ..)).hostKept
        ((setWindow_steady ..).trans (testWindow_steady ..))
    · exact .refl ..

theorem takeRelease_effect (a : Arguments) (s : State) : Effect false configures commands s (takeRelease a s).2 := by
  unfold takeRelease
  split
  · exact .refl ..
  · dsimp only
    split
    · exact .refl ..
    · split
      · exact .refl ..
      · exact .of_steady (setWindow_quiet ..).hostKept (setWindow_steady ..)

theorem takeFlip_effect (a : Arguments) (s : State) : Effect false configures commands s (takeFlip a s).2 := by
  unfold takeFlip
  split
  · exact .refl ..
  · dsimp only
    split
    · exact .refl ..
    · split
      · exact .refl ..
      · exact .of_steady ((setWindow_quiet ..).trans (testWindow_quiet ..)).hostKept
          ((setWindow_steady ..).trans (testWindow_steady ..))

theorem takeClose_effect (a : Arguments) (s : State) : Effect false configures commands s (takeClose a s).2 := by
  have closes (i : Fin 16) (w : Window) :
      Effect false configures commands s (testWindow i (maskChanged (s.setWindow i w))) :=
    .of_steady ((setWindow_quiet ..).trans ((maskChanged_quiet _).trans (testWindow_quiet ..))).hostKept
      ((setWindow_steady ..).trans ((maskChanged_steady _).trans (testWindow_steady ..)))
  unfold takeClose
  split
  · exact .refl ..
  · dsimp only
    split
    · exact closes ..
    · exact closes ..
    · exact .refl ..
    · exact .refl ..

theorem takeBook_effect (a : Arguments) (s : State) : Effect false configures commands s (takeBook a s).2 := by
  unfold takeBook
  split
  · exact .refl ..
  · split
    · exact .refl ..
    · exact .of_steady (setBooking_quiet ..).hostKept (setBooking_steady _ _ s fun _ => Nat.zero_le _)

theorem takeUnbook_effect (a : Arguments) (s : State) : Effect false configures commands s (takeUnbook a s).2 := by
  unfold takeUnbook
  split
  · dsimp only
    split
    · exact .port ..
    · split
      · exact .port ..
      · exact (Effect.port configures commands s _).trans_steady (setBooking_quiet ..).hostKept
          (setBooking_steady _ _ _ fun _ => Nat.zero_le _)
  · exact .refl ..

theorem takeNotice_effect (a : Arguments) (s : State) : Effect false configures commands s (takeNotice a s).2 := by
  unfold takeNotice
  split
  · exact .refl ..
  · split
    · exact .refl ..
    · split
      · exact .refl ..
      · next h => exact .of_steady (placeNotice_quiet ..).hostKept (placeNotice_steady _ s (Nat.lt_of_not_le h))

end Blocks

/-! ## Resets -/

/-- A machine just powered on, whatever its list store and port, is sound. -/
theorem powerOn_sound (strap : BitVec 6) :
    (State.powerOn strap).QueuesSound ∧ (State.powerOn strap).RingSound ∧ (State.powerOn strap).CountersSound ∧
      (State.powerOn strap).StationSound := by
  refine ⟨?_, ?_, ?_, ?_⟩
  · simp [State.QueuesSound, State.powerOn, NoticeUnit.reset, Writer.reset, Trunk.reset, Responder.reset,
      State.immediateTaken, State.reservedTaken, Responder.slottedItems]
  · simp [State.RingSound, State.powerOn, State.checkedProducer, Writer.reset]
  · simp [State.CountersSound, State.powerOn, Counters.reset, Writer.reset, NoticeUnit.reset, State.booking, Booking.reset]
  · exact stationSound_of_cleared (fun i => by simp [State.peer, State.powerOn, Station.reset]) rfl

theorem stationReset_effect (configures commands : Bool) (s : State) :
    Effect true configures commands s (stationReset s) := by
  obtain ⟨queues, ring, counters, station⟩ := powerOn_sound s.station.strap
  exact ⟨⟨fun _ => queues, fun _ => counters, fun _ => station⟩, id, fun _ => ring, rfl, nofun, fun _ => rfl, nofun,
    nofun⟩

/-! ## A whole step -/

/-- A host write of the command register has the effect of its code (R176, R195). -/
theorem writeCommand_effect (value : Word) (s : State) :
    Effect (decide (Instr.commandCode value ∈ [0x04])) (decide (Instr.commandCode value ∈ [0x01]))
      (decide (Instr.commandCode value ∈ [0x05, 0x06, 0x07])) s (writeCommand value s) := by
  unfold writeCommand
  split
  case h_18 _ _ _ _ h _ _ _ _ _ _ _ _ _ _ _ _ _ =>
    have none : decide (Instr.commandCode value ∈ [0x04]) = false := by simpa using h
    rw [none]
    exact .issue fun _ => .refl ..
  all_goals rename_i h
  all_goals rw [h]
  · exact issueConfigure_effect s
  · exact .issue fun _ => takeJoin_effect s
  · exact .issue fun _ => takeLeave_effect s
  · exact stationReset_effect _ _ s
  · exact .issue fun a => takeStart_effect a s
  · exact .issue fun a => takeStop_effect a s
  · exact .issue fun a => takeResume_effect a s
  · exact .issue fun a => takeWindowSet_effect a s
  · exact .issue fun a => takeHold_effect a s
  · exact .issue fun a => takeRelease_effect a s
  · exact .issue fun a => takeFlip_effect a s
  · exact .issue fun a => takeClose_effect a s
  · exact .issue fun a => takeBook_effect a s
  · exact .issue fun a => takeUnbook_effect a s
  · exact .issue fun a => takeNotice_effect a s
  · exact issueRingReset_effect s
  · exact .issue fun _ => .of_steady ⟨rfl, rfl, rfl, rfl, rfl, rfl⟩ (countersClear_steady s)

theorem writeListData_effect {configures commands : Bool} (value : Word) (s : State) :
    Effect false configures commands s (writeListData value s) := by
  exact ⟨⟨id, id, id⟩, storeWf_writeStore value s.port.listAddress.isLt, id, rfl, fun _ hc => absurd rfl hc, nofun,
    fun _ _ => StationState.mayBecome_self _, fun _ _ _ hc => ⟨rfl, hc⟩⟩

theorem writeStatus_effect {configures commands : Bool} (value : Word) (s : State) :
    Effect false configures commands s (writeStatus value s) := by
  unfold writeStatus
  split
  · exact .of_steady ⟨rfl, rfl, rfl, rfl, rfl, rfl⟩
      (setWriter_steady _ s (by exact Nat.le_refl _) (by exact Nat.le_max_left ..))
  · exact .refl ..

/-- A host write of a register (R175). -/
theorem writeRegister_effect (r : Fin 16) (value : Word) (s : State) :
    Effect (isReset (.registerWrite r value)) (isConfigure (.registerWrite r value))
      (isChannelCommand (.registerWrite r value)) s (writeRegister r value s) := by
  by_cases h : r = 1
  · subst h
    exact writeCommand_effect value s
  · have other (codes : List Nat) : writesCode codes (.registerWrite r value) = false := by simp [writesCode, h]
    simp only [isReset, isConfigure, isChannelCommand, other]
    unfold writeRegister
    split
    case h_2 hv => exact absurd (Fin.ext hv) h
    case h_1 => exact writeStatus_effect ..
    case h_8 => exact writeListData_effect ..
    case h_9 => exact writeConsumer_effect ..
    case h_11 => exact .refl ..
    all_goals exact .port ..

/-- The effect of every command but POWER_ON_RESET. -/
theorem exec_effect {i : Instr} {s t : State} (hp : ∀ straps, i ≠ .powerOnReset straps) (h : exec i s = .next t) :
    Effect (isReset i) (isConfigure i) (isChannelCommand i) s t := by
  cases i <;> obtain rfl := Host.Outcome.next.inj h
  case powerOnReset straps => exact absurd rfl (hp straps)
  case configure => exact issueConfigure_effect s
  case join => exact .issue fun _ => takeJoin_effect s
  case leave => exact .issue fun _ => takeLeave_effect s
  case reset => exact stationReset_effect _ _ s
  case start => exact .issue fun a => takeStart_effect a s
  case stop => exact .issue fun a => takeStop_effect a s
  case resume => exact .issue fun a => takeResume_effect a s
  case windowSet => exact .issue fun a => takeWindowSet_effect a s
  case hold => exact .issue fun a => takeHold_effect a s
  case release => exact .issue fun a => takeRelease_effect a s
  case flip => exact .issue fun a => takeFlip_effect a s
  case close => exact .issue fun a => takeClose_effect a s
  case book => exact .issue fun a => takeBook_effect a s
  case unbook => exact .issue fun a => takeUnbook_effect a s
  case notice => exact .issue fun a => takeNotice_effect a s
  case eventRingReset => exact issueRingReset_effect s
  case countersClear => exact .issue fun _ => .of_steady ⟨rfl, rfl, rfl, rfl, rfl, rfl⟩ (countersClear_steady s)
  case pendingCommandTaken => exact takeWaiting_effect s
  case listAddressWrite value => exact .port ..
  case listDataRead => exact .port ..
  case listDataWrite value => exact writeListData_effect value s
  case consumerIndexWrite value => exact writeConsumer_effect value s
  case statusWrite value => exact writeStatus_effect value s
  case interruptEnableWrite value => exact .port ..
  case registerWrite r value => exact writeRegister_effect r value s
  case commandWriteWhileExecuting value => exact writeCommand_effect value s
  case unknownCommandCode value => exact writeCommand_effect value s
  case contentionSlot rival => exact .of_steady (contend_quiet rival s).hostKept (contend_steady rival s)
  case tryEnd echo => exact .of_lawful (tryEnds_quiet echo s).hostKept (tryEnds_lawful echo s)
  case ownNoticeHeard echo => exact .of_steady (hearOwnNotice_quiet echo s).hostKept (hearOwnNotice_steady echo s)
  case receiveFrame frame => exact .of_lawful (receive_quiet frame s).hostKept (receive_lawful frame s)
  case deadlineExpiry k => exact .of_steady (deadlineExpired_frame k s).hostKept (deadlineExpired_steady k s)
  case retryExpiry k => exact .of_steady (retryExpired_frame k s).hostKept (retryExpired_steady k s)
  case coolingExpiry k => exact .of_steady (coolingExpired_frame k s).hostKept (coolingExpired_steady k s)
  case waitTimerExpiry c => exact .of_steady (waitExpired_frame c s).hostKept (waitExpired_steady c s)
  case listeningTimerExpiry => exact .of_lawful (listeningExpired_quiet s).hostKept (listeningExpired_lawful s)
  case presenceTimerExpiry => exact .of_steady (presenceExpired_quiet s).hostKept (presenceExpired_steady s)
  case silenceTimerExpiry a => exact .of_steady (silenceExpired_quiet a s).hostKept (silenceExpired_steady a s)
  case prepareSegment c => exact .of_steady (prepareSegment_frame c s).hostKept (prepareSegment_steady c s)
  case tagGrant => exact .of_steady (grantFrom_frame _ s).hostKept (grantFrom_steady _ s)
  case noticePlaceGrant => exact .of_steady (grantNoticePlace_quiet s).hostKept (grantNoticePlace_steady s)
  case busGrant => exact .of_steady (grantBus_quiet s).hostKept (grantBus_steady s)
  case burstResponse error data => exact burstEnds_effect error data s
  case eventWriteBegin => exact beginWrite_effect s
  case channelEnterReporting c => exact .of_steady (reportEnd_frame c s).hostKept (reportEnd_steady c s)
  case windowCompletion w => exact .of_steady (testWindow_quiet w s).hostKept (testWindow_steady w s)
  case farewellOffer => exact .of_steady (offerFarewell_quiet s).hostKept (offerFarewell_steady s)

/-- The invariants of the machine: the list store's form, the bounds of queues, ring and counters, a sound station. -/
theorem exec_kept {i : Instr} {s t : State} (h : exec i s = .next t) :
    (s.StoreSound → t.StoreSound) ∧ (s.QueuesSound → t.QueuesSound) ∧ (s.RingSound → t.RingSound) ∧
      (s.CountersSound → t.CountersSound) ∧ (s.StationSound → t.StationSound) := by
  by_cases hp : ∃ straps, i = .powerOnReset straps
  · obtain ⟨straps, rfl⟩ := hp
    obtain rfl := Host.Outcome.next.inj h
    obtain ⟨queues, ring, counters, station⟩ := powerOn_sound straps
    exact ⟨fun _ => rfl, fun _ => queues, fun _ => ring, fun _ => counters, fun _ => station⟩
  · have e := exec_effect (fun straps hi => hp ⟨straps, hi⟩) h
    exact ⟨e.store, e.queues, e.ring, e.counters, e.sound⟩

/-- A step runs one command, or none, on a state that differs in the waiting commands alone. -/
theorem step_cases {s t : State} (h : step s = .next t) :
    t = s ∨ ∃ i rest, exec i { s with pending := rest } = .next t := by
  unfold step at h
  split at h
  · exact .inl (Host.Outcome.next.inj h).symm
  · exact .inr ⟨_, _, h⟩

/-- Settles O52, by the effect of each command: only LIST_DATA_WRITE writes the store, by `writeStore`. -/
theorem storeSoundKept : Obligations.StoreSoundKept := by
  intro s t hs h
  obtain rfl | ⟨i, rest, h⟩ := step_cases h
  · exact hs
  · exact (exec_kept h).1 hs

/-- Settles O53, by the bounds that every operation inside a step keeps. -/
theorem queuesSoundKept : Obligations.QueuesSoundKept := by
  intro s t hs h
  obtain rfl | ⟨i, rest, h⟩ := step_cases h
  · exact hs
  · exact (exec_kept h).2.1 hs

/-- Settles O54, by the effect of each command: the writer begins and ends records, the host writes the consumer index and
resets the ring. -/
theorem ringSoundKept : Obligations.RingSoundKept := by
  intro s t hs h
  obtain rfl | ⟨i, rest, h⟩ := step_cases h
  · exact hs
  · exact (exec_kept h).2.2.1 hs

/-- Settles O55, by the bounds that every operation inside a step keeps: each count saturates. -/
theorem countersSoundKept : Obligations.CountersSoundKept := by
  intro s t hs h
  obtain rfl | ⟨i, rest, h⟩ := step_cases h
  · exact hs
  · exact (exec_kept h).2.2.2.1 hs

/-- Settles O56, by the soundness that every operation inside a step keeps: a peer goes PRESENT by a presence of another
station on the trunk, and a farewell is made in LEAVING. -/
theorem stationSoundKept : Obligations.StationSoundKept := by
  intro s t hs h
  obtain rfl | ⟨i, rest, h⟩ := step_cases h
  · exact hs
  · exact (exec_kept h).2.2.2.2 hs

/-- Settles O57: at power-on every list is empty and every count 0. -/
theorem resetSound : Obligations.ResetSound := by
  obtain ⟨queues, ring, counters, station⟩ := powerOn_sound 0
  exact ⟨rfl, queues, ring, counters, station⟩

/-- Settles O58, by the transitions that each command's effect makes. -/
theorem stationTransitions : Obligations.StationTransitions := by
  intro i s t hs h
  by_cases hp : ∃ straps, i = .powerOnReset straps
  · obtain ⟨straps, rfl⟩ := hp
    obtain rfl := Host.Outcome.next.inj h
    exact ⟨fun _ => rfl, nofun⟩
  · have e := exec_effect (fun straps hi => hp ⟨straps, hi⟩) h
    exact ⟨e.resets, fun hr => e.moves hr hs⟩

/-- Settles O59, by the effect of each command: only CONFIGURE, taken in OFFLINE, writes the configuration. -/
theorem configurationKept : Obligations.ConfigurationKept := by
  intro i s t h
  refine ⟨fun hp => (exec_effect hp h).strap, fun hr => (exec_effect ?_ h).config hr⟩
  rintro straps rfl
  exact absurd hr (by simp [isReset])

/-- Settles O60: each operation leaves a channel apart that it does not act on, and one HALTED, the owner of no tag, with
nothing in hand, is acted on by a START, STOP or RESUME alone. -/
theorem haltedChannelKept : Obligations.HaltedChannelKept := by
  intro i c s t hc hr hch h
  refine (exec_effect ?_ h).rests hr hch c hc
  rintro straps rfl
  exact absurd hr (by simp [isReset])

end Sys2Proof.Machine

/-! PROOFS. The resets, the command unit and the register window: what a host write does by its register and its code
(R2, R162, R175 to R181, R188). -/

namespace Sys2Proof.Machine

set_option Elab.async false

/-! ## A step and the resets -/

/-- Settles O1: a step takes the front of the queue by its definition. -/
theorem stepRunsFrontCommand : Obligations.StepRunsFrontCommand := fun _ _ _ => rfl

/-- What a machine has right after power-on, whatever its list store, port and queue of commands (R142, R189). -/
theorem powerOn_tables (strap : BitVec 6) :
    (∀ c, (State.powerOn strap).channel c = Channel.reset) ∧ (∀ k, (State.powerOn strap).tag k = Tag.reset) ∧
      (∀ w, (State.powerOn strap).window w = Window.reset) ∧ (∀ b, (State.powerOn strap).booking b = Booking.reset) ∧
      (∀ a, (State.powerOn strap).peer a = Peer.reset) ∧ (∀ a, (State.powerOn strap).memo a = none) := by
  refine ⟨fun c => ?_, fun k => ?_, fun w => ?_, fun b => ?_, fun a => ?_, fun a => ?_⟩
  · simp [State.channel, State.powerOn, Engine.reset]
  · simp [State.tag, State.powerOn, Engine.reset]
  · simp [State.window, State.powerOn, Responder.reset]
  · simp [State.booking, State.powerOn, NoticeUnit.reset]
  · simp [State.peer, State.powerOn, Station.reset]
  · simp [State.memo, State.powerOn, Responder.reset]

/-- A status word of an OFFLINE station with no flag set shows the address alone (R195). -/
theorem statusWord_of_quiet {s : State} (state : s.station.state = .offline) (fault : s.writer.eventFault = false)
    (error : s.writer.ringError = false) (line : s.interruptLine = false) : s.statusWord = place s.ownAddress 8 := by
  simp [State.statusWord, state, fault, error, line, StationState.code, place, flagAt]

/-- The result register while no command executes (R195). -/
theorem resultWord_of_idle {s : State} (idle : s.port.executing = none) : s.resultWord = place s.port.result.code 0 := by
  simp [State.resultWord, idle, flagAt, place]

/-- Settles O2: every field holds its reset value by definition. -/
theorem powerOnResetEffect : Obligations.PowerOnResetEffect := by
  intro straps s
  obtain ⟨channels, tags, windows, bookings, peers, memos⟩ := powerOn_tables straps
  exact ⟨_, rfl, fun _ => rfl, fun _ => rfl, channels, tags, windows, bookings, peers, memos, rfl, rfl, rfl, rfl, rfl, rfl,
    rfl, rfl, rfl, rfl, rfl, rfl, rfl, rfl, rfl, rfl, rfl, rfl, rfl, rfl,
    statusWord_of_quiet rfl rfl rfl rfl, resultWord_of_idle rfl, rfl⟩

/-- Settles O3: every field but the list store and the strap holds its reset value by definition. -/
theorem stationResetEffect : Obligations.StationResetEffect := by
  intro s
  obtain ⟨channels, tags, windows, bookings, peers, memos⟩ := powerOn_tables s.station.strap
  exact ⟨_, rfl, fun _ => rfl, rfl, channels, tags, windows, bookings, peers, memos, rfl, rfl, rfl, rfl, rfl, rfl, rfl, rfl,
    rfl, rfl, rfl, rfl, rfl, rfl, rfl, rfl, rfl, rfl, rfl, rfl, rfl, rfl, rfl, rfl,
    resultWord_of_idle rfl, statusWord_of_quiet rfl rfl rfl rfl, rfl⟩

/-! ## The command unit -/

/-- A code that names none of the seventeen commands (R177). -/
theorem writeCommand_of_unknown {value : Word} (h : Instr.commandCode value = 0 ∨ 17 < Instr.commandCode value)
    (s : State) :
    writeCommand value s = unknownCode s := by
  unfold writeCommand
  split
  case h_18 => rfl
  -- the seventeen known codes
  all_goals omega

/-- While a command executes, each code but RESET's gives BUSY (R176). -/
theorem writeCommand_of_executing {value : Word} {s : State} (h : s.port.executing ≠ none)
    (hc : Instr.commandCode value ≠ 4) : writeCommand value s = refuseBusy s := by
  have executing : s.port.executing.isSome = true := Option.isSome_iff_ne_none.mpr h
  unfold writeCommand
  split
  case h_4 => contradiction
  -- every code but RESET
  all_goals simp [issue, issueConfigure, issueRingReset, unknownCode, executing]

/-- Settles O4, by the codes and by whether a command executes. -/
theorem commandRefusals : Obligations.CommandRefusals := by
  intro value s
  refine ⟨fun idle unknown => ?_, fun busy unknown => ?_, fun busy other => ?_, fun _ reset => ?_, fun busy c hc => ?_⟩
  · have port : { s.port with result := CommandResult.badArg, executing := none } =
        { s.port with result := CommandResult.badArg } := by rw [← idle]
    show Host.Outcome.next (writeCommand value s) = _
    rw [writeCommand_of_unknown unknown, unknownCode, issue_of_idle idle, ← port]
    rfl
  · show Host.Outcome.next (writeCommand value s) = _
    rw [writeCommand_of_executing busy (by omega)]
    rfl
  · show Host.Outcome.next (writeCommand value s) = _
    rw [writeCommand_of_executing busy other]
    rfl
  · show Host.Outcome.next (writeCommand value s) = .next (stationReset s)
    rw [writeCommand, reset]
    rfl
  · have executing : s.port.executing.isSome = true := Option.isSome_iff_ne_none.mpr busy
    simp only [List.mem_cons, List.not_mem_nil, or_false] at hc
    rcases hc with rfl | rfl | rfl | rfl | rfl | rfl | rfl | rfl | rfl | rfl | rfl | rfl | rfl | rfl | rfl | rfl <;>
      exact congrArg Host.Outcome.next (if_pos executing)

/-- Settles O5: each code's write and its command have one meaning. -/
theorem commandCodes : Obligations.CommandCodes := by
  intro value s p hp code
  suffices h : Host.Outcome.next (writeCommand value s) = exec p.2 s from ⟨h, h, h⟩
  simp only [List.mem_cons, List.not_mem_nil, or_false] at hp
  rcases hp with rfl | rfl | rfl | rfl | rfl | rfl | rfl | rfl | rfl | rfl | rfl | rfl | rfl | rfl | rfl | rfl | rfl <;>
    (rw [writeCommand, code]; rfl)

/-! ## CONFIGURE and EVENT_RING_RESET -/

/-- A command that waits for no record write is taken at once. -/
theorem issueConfigure_of_idle {s : State} (idle : s.port.executing = none) (free : s.writer.inFlight = none) :
    issueConfigure s = endCommand (takeConfigure s.port.arguments s) := by
  simp [issueConfigure, idle, free]

theorem issueRingReset_of_idle {s : State} (idle : s.port.executing = none) (free : s.writer.inFlight = none) :
    issueRingReset s = endCommand (takeEventRingReset s) := by
  simp [issueRingReset, idle, free]

theorem takeWaiting_configure {s : State} {a : Arguments} (free : s.writer.inFlight = none)
    (waits : s.port.executing = some (.configure a)) : takeWaiting s = endCommand (takeConfigure a s) := by
  simp [takeWaiting, free, waits]

theorem takeWaiting_eventRingReset {s : State} (free : s.writer.inFlight = none)
    (waits : s.port.executing = some .eventRingReset) : takeWaiting s = endCommand (takeEventRingReset s) := by
  simp [takeWaiting, free, waits]

theorem takeConfigure_of_offline {a : Arguments} {config : Configuration} {s : State}
    (hc : a.configuration = some config) (off : s.station.state = .offline) :
    takeConfigure a s = (.done, resetRing { s with station := { s.station with config := config } }) := by
  simp [takeConfigure, hc, off]

theorem takeConfigure_of_not_offline {a : Arguments} {config : Configuration} {s : State}
    (hc : a.configuration = some config) (on : s.station.state ≠ .offline) : takeConfigure a s = (.badState, s) := by
  simp [takeConfigure, hc, on]

/-- Settles O6, by the command that waits. -/
theorem waitingCommands : Obligations.WaitingCommands := by
  intro s
  refine ⟨fun idle busy => ?_, fun free waits => ?_, fun a config free waits hc => ⟨fun off => ?_, fun on => ?_⟩⟩
  · have writing : s.writer.inFlight.isSome = true := Option.isSome_iff_ne_none.mpr busy
    refine ⟨congrArg Host.Outcome.next ?_, fun ranges => congrArg Host.Outcome.next ?_⟩
    · simp [issueRingReset, idle, writing, waitForWrite]
    · have inRange : (Arguments.configuration s.port.arguments).isSome = true := Option.isSome_iff_ne_none.mpr ranges
      simp [issueConfigure, idle, inRange, writing, waitForWrite]
  · exact congrArg Host.Outcome.next (takeWaiting_eventRingReset free waits)
  · refine congrArg Host.Outcome.next ?_
    rw [takeWaiting_configure free waits, takeConfigure_of_offline hc off]
    rfl
  · refine congrArg Host.Outcome.next ?_
    rw [takeWaiting_configure free waits, takeConfigure_of_not_offline hc on]
    rfl

/-- The port with a result set, while no command executes. -/
theorem withResult_of_idle {s : State} (idle : s.port.executing = none) (r : CommandResult) :
    s.withResult r = { s with port := { s.port with result := r } } := by
  rw [State.withResult, ← idle]

/-- Settles O8: each command's effect, ended at once. -/
theorem ringResetAndCountersClear : Obligations.RingResetAndCountersClear := by
  intro s idle
  refine ⟨fun free => congrArg Host.Outcome.next ?_, congrArg Host.Outcome.next ?_⟩
  · rw [issueRingReset_of_idle idle free]
    exact withResult_of_idle (s := eventRingReset s) idle .done
  · rw [issue_of_idle idle]
    exact withResult_of_idle (s := (takeCountersClear s).2) idle .done

/-! ## The arguments of CONFIGURE (R144, R195) -/

/-- Some argument of CONFIGURE is out of its range: an interval or the deadline zero, the rate, the ring size, or a ring
base not on 16 bytes (R144). -/
def Arguments.ConfigureOutOfRange (a : Arguments) : Prop :=
  field a[0] 8 8 = 0 ∨ field a[0] 16 8 = 0 ∨ field a[0] 24 8 = 0 ∨ 3 < field a[1] 0 3 ∨ 8 < field a[1] 8 4 ∨
    field a[2] 0 4 ≠ 0

theorem Arguments.rate_eq (a : Arguments) :
    a.rate = [Rate.mbit1p5, .mbit3, .mbit6, .mbit12][field a[1] 0 3]? := by
  unfold Arguments.rate
  generalize field a[1] 0 3 = n
  split
  · rfl
  · rfl
  · rfl
  · rfl
  · next h0 h1 h2 h3 =>
    have beyond : 4 ≤ n := by
      refine Nat.le_of_not_lt fun hn => ?_
      rcases n with _ | _ | _ | _ | n
      · exact h0 rfl
      · exact h1 rfl
      · exact h2 rfl
      · exact h3 rfl
      · omega
    exact (List.getElem?_eq_none beyond).symm

theorem byte_eq_zero_iff (w : Word) (lo : Nat) : (w.extractLsb' lo 8 : Byte) = 0 ↔ field w lo 8 = 0 := by
  rw [field, ← BitVec.toNat_inj]; rfl

theorem Arguments.configuration_of_outOfRange {a : Arguments} (h : a.ConfigureOutOfRange) : a.configuration = none := by
  unfold Arguments.configuration
  split
  · next rate code hr hc =>
    rw [Arguments.rate_eq] at hr
    have rated : field a[1] 0 3 < 4 := (List.getElem?_eq_some_iff.mp hr).1
    have sized : field a[1] 8 4 < 9 := by
      unfold Arguments.ringCode at hc
      split at hc
      · assumption
      · cases hc
    simp only [Arguments.ConfigureOutOfRange] at h
    simp only [byte_eq_zero_iff, Bool.or_eq_true, decide_eq_true_eq, bne_iff_ne]
    rw [if_pos (by omega)]
  · rfl

theorem Arguments.configuration_of_inRange {a : Arguments} (h : ¬ a.ConfigureOutOfRange) :
    ∃ config : Configuration, a.configuration = some config ∧
      config.incarnation.toNat = field a[0] 0 8 ∧ config.presenceInterval.toNat = field a[0] 8 8 ∧
      config.replyDeadline.toNat = field a[0] 16 8 ∧ config.retryInterval.toNat = field a[0] 24 8 ∧
      [Rate.mbit1p5, .mbit3, .mbit6, .mbit12][field a[1] 0 3]? = some config.rate ∧
      config.ringBase = a[2] ∧ config.ringCode.val = field a[1] 8 4 ∧ config.ringConfigured = true := by
  simp only [Arguments.ConfigureOutOfRange, not_or] at h
  obtain ⟨interval, deadline, retry, rate, size, base⟩ := h
  obtain ⟨r, hr⟩ : ∃ r, [Rate.mbit1p5, .mbit3, .mbit6, .mbit12][field a[1] 0 3]? = some r :=
    ⟨_, List.getElem?_eq_getElem (show field a[1] 0 3 < 4 by omega)⟩
  have hc : a.ringCode = some ⟨field a[1] 8 4, by omega⟩ := dif_pos (by omega)
  refine ⟨⟨a[0].extractLsb' 0 8, a[0].extractLsb' 8 8, a[0].extractLsb' 16 8, a[0].extractLsb' 24 8, r, a[2],
    ⟨field a[1] 8 4, by omega⟩, true⟩, ?_, rfl, rfl, rfl, rfl, hr, rfl, rfl, rfl⟩
  simp only [Arguments.configuration, Arguments.rate_eq, hr, hc]
  refine if_neg ?_
  simp only [byte_eq_zero_iff, Bool.or_eq_true, decide_eq_true_eq, bne_iff_ne]
  omega

/-- Settles O7, by the ranges of the arguments and then by the station state. -/
theorem configureEffect : Obligations.ConfigureEffect := by
  intro s idle free a outOfRange
  have taken : exec .configure s = .next (endCommand (takeConfigure a s)) :=
    congrArg Host.Outcome.next (issueConfigure_of_idle idle free)
  rw [taken]
  refine ⟨fun out => ?_, fun inRange on => ?_, fun inRange off => ?_⟩
  · have none : Arguments.configuration a = none := Arguments.configuration_of_outOfRange out
    rw [takeConfigure, none]
    exact congrArg Host.Outcome.next (withResult_of_idle idle .badArg)
  · obtain ⟨config, hc, -⟩ := Arguments.configuration_of_inRange inRange
    rw [takeConfigure_of_not_offline hc on]
    exact congrArg Host.Outcome.next (withResult_of_idle idle .badState)
  · obtain ⟨config, hc, h1, h2, h3, h4, h5, h6, h7, h8⟩ := Arguments.configuration_of_inRange inRange
    rw [takeConfigure_of_offline hc off]
    exact ⟨config, h1, h2, h3, h4, h5, h6, h7, h8, congrArg Host.Outcome.next
      (withResult_of_idle (s := resetRing { s with station := { s.station with config := config } }) idle .done)⟩

/-! ## The registers -/

theorem readStore_advance (s : State) : (advanceListAddress s).port.listAddress.toNat =
    (s.port.listAddress.toNat + 1) % 4096 := by
  simp [advanceListAddress]

/-- Settles O9, by the store's own law of reading after a write. -/
theorem listPortEffect : Obligations.ListPortEffect := by
  intro value s
  refine ⟨⟨_, rfl, ?_, rfl, rfl⟩, ⟨_, rfl, rfl, readStore_advance _, rfl, rfl⟩, fun sound => ⟨_, rfl, fun a => ?_,
    readStore_advance _, rfl, rfl⟩⟩
  · simp [writeListAddress]
  · show readStore (writeStore s.listStore s.port.listAddress.toNat value) a = _
    rw [readStore_writeStore sound]
    exact if_congr eq_comm rfl rfl

/-- Settles O10: the unconsumed count that results, worked out on numbers. -/
theorem consumerIndexWrite : Obligations.ConsumerIndexWrite := by
  intro value s placed count
  have counted : (s.checkedProducer - value.extractLsb' 0 16).toNat = count := by
    have producer : s.checkedProducer.toNat = placed % 65536 := by
      unfold State.checkedProducer
      cases h : s.writer.inFlight with
      | none => simp only [placed, h, Option.isSome_none, Bool.toNat_false, Nat.add_zero, Bool.false_eq_true, if_false,
          Nat.mod_eq_of_lt s.writer.producer.isLt]
      | some r => simp [placed, h]
    have index : (value.extractLsb' 0 16).toNat = value.toNat % 65536 := by simp [BitVec.extractLsb'_toNat]
    rw [BitVec.toNat_sub, producer, index]
    omega
  refine ⟨fun fits => congrArg Host.Outcome.next (if_pos ?_), fun exceeds => congrArg Host.Outcome.next (if_neg ?_)⟩
  · rw [State.consumerValid, decide_eq_true_eq, counted]; exact fits
  · rw [State.consumerValid, decide_eq_true_eq, counted]; omega

theorem unconsumed_pos_iff (s : State) : 0 < s.unconsumed ↔ s.writer.producer ≠ s.writer.consumer := by
  unfold State.unconsumed; bv_omega

/-- A number placed in a word sets no bit beyond its own. -/
theorem place_getLsbD_of_lt {n lo i : Nat} (h : n < 2 ^ (i - lo)) : (place n lo).getLsbD i = false := by
  simp [place, BitVec.getLsbD_ofNat, Nat.testBit_lt_two_pow h]

/-- Bit 18 of the status word is the interrupt line (R195). -/
theorem statusWord_bit (s : State) : bit s.statusWord 18 = s.interruptLine := by
  have flag (b : Bool) {lo : Nat} (h : 2 ≤ 2 ^ (18 - lo)) : (flagAt b lo).getLsbD 18 = false :=
    place_getLsbD_of_lt (Nat.lt_of_lt_of_le (Bool.toNat_lt b) h)
  have code : s.station.state.code < 2 ^ (18 - 0) := by cases s.station.state <;> decide
  have own : s.ownAddress < 2 ^ (18 - 8) := Nat.lt_of_lt_of_le s.station.strap.isLt (by decide)
  have line : (flagAt s.interruptLine 18).getLsbD 18 = s.interruptLine := by
    cases s.interruptLine <;> decide
  simp only [bit, State.statusWord, BitVec.getLsbD_or, place_getLsbD_of_lt code, place_getLsbD_of_lt own,
    flag _ (lo := 16) (by decide), flag _ (lo := 17) (by decide), line, Bool.or_false, Bool.false_or]

/-- The interrupt line's condition (R181). -/
theorem interruptLine_iff (s : State) : s.interruptLine = true ↔
    s.port.enableRecords = true ∧ s.writer.producer ≠ s.writer.consumer ∨
      s.port.enableFault = true ∧ (s.writer.eventFault = true ∨ s.writer.ringError = true) := by
  simp only [State.interruptLine, Bool.or_eq_true, Bool.and_eq_true, decide_eq_true_eq, unconsumed_pos_iff]

/-- Settles O11, by the written bits and the interrupt line's condition. -/
theorem statusAndEnableWrites : Obligations.StatusAndEnableWrites := by
  intro value s
  refine ⟨fun set => congrArg Host.Outcome.next (if_pos set), fun clear => congrArg Host.Outcome.next (if_neg ?_),
    _, rfl, rfl, interruptLine_iff _, statusWord_bit _⟩
  · rw [clear]; exact Bool.false_ne_true

/-- Settles O12, by the number of the register. -/
theorem registerWriteEffect : Obligations.RegisterWriteEffect := by
  intro r value s
  refine ⟨fun i hr => ?_, fun hr => ?_, fun hr => ?_, fun hr => ?_, fun hr => ?_, fun hr => ?_, fun hr => ?_⟩
  · obtain ⟨r, hlt⟩ := r
    obtain rfl : r = 3 + i.val := hr
    match i with
    | 0 | 1 | 2 | 3 => rfl
  · simp only [List.mem_cons, List.not_mem_nil, or_false] at hr
    refine congrArg Host.Outcome.next ?_
    rw [writeRegister]
    rcases hr with hr | hr | hr | hr | hr | hr <;> rw [hr] <;> rfl
  · obtain rfl : r = 0 := Fin.ext hr
    rfl
  · obtain rfl : r = 7 := Fin.ext hr
    rfl
  · obtain rfl : r = 8 := Fin.ext hr
    rfl
  · obtain rfl : r = 10 := Fin.ext hr
    rfl
  · obtain rfl : r = 11 := Fin.ext hr
    rfl

end Sys2Proof.Machine

/-! PROOFS. Station control: JOIN, LEAVE, the station's own timers, and the presence frames that it makes (R147 to R161). -/

namespace Sys2Proof.Machine

set_option Elab.async false

/-- A command that its block takes at once ends with the result and the state of its effect (R176). -/
theorem issue_taken {effect : Arguments → State → CommandEffect} {s t : State} {r : CommandResult}
    (idle : s.port.executing = none) (h : effect s.port.arguments s = (r, t)) :
    Host.Outcome.next (issue effect s) = (.next (t.withResult r) : Host.Outcome State Fault Refusal) := by
  rw [issue_of_idle idle, h]
  rfl

/-! ## JOIN and LEAVE -/

theorem isStation_iff (a : Nat) : Instr.isStation a = true ↔ 1 ≤ a ∧ a ≤ 40 := by simp [Instr.isStation]

/-- Settles O13, by the station state, the address, the ring and the event list. -/
theorem joinEffect : Obligations.JoinEffect := by
  intro s idle
  have refused (h : s.station.state ≠ .offline ∨ ¬ (1 ≤ s.ownAddress ∧ s.ownAddress ≤ 40) ∨
      s.station.config.ringConfigured = false) : takeJoin s = (.badState, s) := by
    refine if_pos ?_
    simp only [← isStation_iff, Bool.not_eq_true] at h
    simp only [Bool.or_eq_true, decide_eq_true_eq, Bool.not_eq_true', or_assoc]
    exact h
  have allowed (off : s.station.state = .offline) (own : 1 ≤ s.ownAddress ∧ s.ownAddress ≤ 40)
      (ring : s.station.config.ringConfigured = true) :
      takeJoin s = if s.station.events ≠ [] then (.busy, s) else (.accepted, beginListening s) := by
    refine if_neg ?_
    simp [off, (isStation_iff _).mpr own, ring]
  refine ⟨fun on => issue_taken idle (refused (.inl on)), fun off => ⟨fun h => issue_taken idle (refused ?_),
    fun low high ring => ⟨fun events => issue_taken idle ?_, fun events => issue_taken idle ?_⟩⟩⟩
  · obtain h | h | h := h
    · exact .inr (.inl fun own => by omega)
    · exact .inr (.inl fun own => by omega)
    · exact .inr (.inr h)
  · rw [allowed off ⟨low, high⟩ ring, if_pos events]
  · rw [allowed off ⟨low, high⟩ ring, if_neg (not_not.mpr events)]
    rfl

/-- Settles O14: outside JOINED a LEAVE is refused, or returns the station to OFFLINE. -/
theorem leaveOutsideJoined : Obligations.LeaveOutsideJoined := by
  intro s idle
  refine ⟨fun off => issue_taken idle ?_, fun leaving => issue_taken idle ?_, fun h => ⟨_, issue_taken idle
    (t := returnOffline .left s) (r := .done) ?_, ?_⟩⟩
  · rw [takeLeave, off]
  · rw [takeLeave, leaving]
  · obtain h | h := h <;> rw [takeLeave, h]
  · obtain ⟨state, events, listening, presence, fresh, pending, farewell, config, strap, roster, memos, trunk, cooled, kept,
      work, port⟩ := returnOffline_returnedOffline .left s
    refine ⟨?_, work, state, events, listening, presence, fresh, pending, farewell, config, strap, roster, memos, ?_, ?_,
      cooled, kept⟩
    · rw [State.withResult, State.withResult, port]
    · show (returnOffline .left s).trunk.replies = []
      rw [trunk]
    · show (returnOffline .left s).trunk.yielding = false
      rw [trunk]

/-! ## Presence -/

/-- A presence is made, and a try of the one that it replaces runs to its end (R149). -/
theorem makePresence_eq (leaving : Bool) (s : State) : makePresence leaving s = { s with
    station := { s.station with pending := some (s.madePresence leaving) }
    trunk := { s.trunk with line := s.trunk.line.map Try.replaced } } := by
  have line : (makePresence leaving s).trunk.line = s.trunk.line.map Try.replaced := by
    cases hl : s.trunk.line with
    | none => simp [makePresence, hl]
    | some x =>
      obtain ⟨frame, bytes, fate, heard⟩ := x
      cases frame <;> cases fate <;> simp [makePresence, hl, Try.replaced]
  rw [← line]
  rfl

/-- An ordinary presence is made in `s`, and the presence timer starts (R149). -/
theorem ordinaryPresence_eq {s : State} (h : s.station.farewellOffered = false) : ordinaryPresence s = { s with
    station := { s.station with
      pending := some (s.madePresence false)
      presenceTimer := .running s.station.config.presenceInterval.toNat }
    trunk := { s.trunk with line := s.trunk.line.map Try.replaced } } := by
  rw [ordinaryPresence, if_neg (by rw [h]; decide), makePresence_eq]
  rfl

/-- A presence made in a state `u` is the one that the statement describes between `s` and `t`, when `u` agrees with them in
what it carries. -/
theorem presenceMade_of {s t : State} (u : State) {leaving : Bool}
    (pending : t.station.pending = some (u.madePresence leaving)) (config : u.station.config = s.station.config)
    (fresh : u.station.fresh = t.station.fresh) (windows : ∀ w, (u.window w).advertised = (t.window w).advertised) :
    s.PresenceMade t leaving := by
  refine ⟨_, pending, ?_, ?_, fresh, rfl, rfl, fun w => ?_⟩
  · rw [← config]; rfl
  · rw [← config]; rfl
  · rw [← windows]; exact advertisedMask_getLsbD u w

theorem isRunning_of_ne_stopped {x : Timer} (h : x ≠ .stopped) : x.isRunning = true := by
  cases x with
  | stopped => exact absurd rfl h
  | running n => rfl

/-- Settles O16: the station goes JOINED and makes a presence with the fresh flag. -/
theorem listeningTimerExpiry : Obligations.ListeningTimerExpiry := by
  intro s listening running
  refine ⟨startPresenceTimer (makePresence false (raiseStation .joined { s with station := { s.station with
    state := .joined, listeningTimer := .stopped, fresh := true } })), congrArg Host.Outcome.next (if_pos ?_), ?_⟩
  · simp [listening, isRunning_of_ne_stopped running]
  · rw [makePresence_eq]
    exact ⟨rfl, rfl, rfl, rfl, presenceMade_of _ rfl rfl rfl fun _ => rfl, rfl, fun _ => rfl, rfl,
      ⟨rfl, rfl, rfl, rfl, rfl, rfl, rfl, rfl, rfl, rfl⟩,
    rfl, rfl, rfl, rfl⟩

/-- Settles O17: an ordinary presence is made unless the farewell has been offered. -/
theorem presenceTimerExpiry : Obligations.PresenceTimerExpiry := by
  intro s on running
  have taken : exec .presenceTimerExpiry s = .next (ordinaryPresence s) := by
    refine congrArg Host.Outcome.next (if_pos ?_)
    obtain on | on := on <;> simp [State.onTrunk, on, isRunning_of_ne_stopped running]
  rw [taken]
  refine ⟨fun open_ => ⟨_, rfl, ?_⟩, fun offered => congrArg Host.Outcome.next (if_pos offered)⟩
  rw [ordinaryPresence_eq open_]
  exact ⟨presenceMade_of s rfl rfl rfl fun _ => rfl, rfl, ⟨rfl, rfl, rfl, rfl, rfl, rfl, rfl, rfl, rfl, rfl⟩,
    rfl, rfl, rfl, rfl⟩

theorem drained_of_empty {s : State} (channels : ∀ c, (s.channel c).state = .idle ∨ (s.channel c).state = .halted)
    (work : s.responder.queue = []) (replies : s.trunk.replies = []) (notices : s.notices.queue = []) :
    s.drained = true := by
  simp only [State.drained, work, replies, notices, List.isEmpty_nil, Bool.and_true, List.all_eq_true]
  intro ch hch
  obtain ⟨i, hi, rfl⟩ := List.getElem_of_mem hch
  have := channels ⟨i, by simpa using hi⟩
  simpa [State.channel] using this

/-- Settles O18: the farewell is made once the drain condition holds. -/
theorem farewellOffer : Obligations.FarewellOffer := by
  intro s leaving unoffered channels work replies notices
  refine ⟨{ makePresence true s with station := { (makePresence true s).station with
    presenceTimer := .stopped, farewellOffered := true } }, congrArg Host.Outcome.next (if_pos ?_), ?_⟩
  · simp [leaving, unoffered, drained_of_empty channels work replies notices]
  · rw [makePresence_eq]
    exact ⟨presenceMade_of s rfl rfl rfl fun _ => rfl, rfl, ⟨rfl, rfl, rfl, rfl, rfl, rfl, rfl, rfl, rfl, rfl⟩, rfl, rfl,
      rfl, rfl⟩

/-! ## Address conflicts -/

/-- Settles O21: the end of the try, then what the conflict does by the station state. -/
theorem exclusion : Obligations.Exclusion := by
  intro i s meets ended conflict
  refine ⟨?_, ?_⟩
  · rintro frame rfl
    obtain ⟨silent, rate, steady, checks, own⟩ := meets
    refine ⟨addressConflict s, congrArg Host.Outcome.next ?_, addressConflict_conflictTaken s⟩
    have good : checkGood frame.bytes = true := by
      simp only [receiveChecks, Bool.and_eq_true] at checks
      simp_all
    simp [receive, silent, rate, steady, good, checks, own]
  · rintro echo f bytes fate rfl line
    obtain ⟨f', bytes', fate', line', differs, good, own⟩ := meets
    obtain ⟨rfl, rfl, rfl⟩ : f' = f ∧ bytes' = bytes ∧ fate' = fate := by
      rw [line] at line'
      simpa [eq_comm] using line'
    have incomplete : Try.echoComplete ⟨f', bytes', fate', false⟩ echo = false := by simp [Try.echoComplete, differs]
    have conflicts : s.echoConflicts ⟨f', bytes', fate', false⟩ echo = true := by
      simp [State.echoConflicts, incomplete, good, own]
    have taken : tryEnds echo s = addressConflict (endTry ⟨f', bytes', fate', false⟩ false (ended s.trunk.pointer)) := by
      have unheard (u : State) : awaitHearing ⟨f', bytes', fate', false⟩ false u = u := by
        unfold awaitHearing; split <;> rfl
      simp only [tryEnds, line, incomplete, conflicts, if_true, unheard]
      rfl
    have reaches (u : State) (h : endTry ⟨f', bytes', fate', false⟩ false (ended s.trunk.pointer) = u) : conflict u :=
      ⟨addressConflict u, congrArg Host.Outcome.next (taken.trans (congrArg addressConflict h)),
        addressConflict_conflictTaken u⟩
    refine ⟨?_, ?_, ?_, ?_, ?_⟩
    · rintro rfl early
      exact reaches _ (if_neg (Nat.not_le.mpr early))
    · rintro rfl fourth
      exact ⟨_, endTransmission_frameAbandoned f' (ended s.trunk.pointer), reaches _ (if_pos fourth)⟩
    · rintro k rfl rfl
      exact reaches _ rfl
    · rintro rfl other
      cases f' with
      | request k => exact absurd rfl (other k)
      | _ => exact reaches _ rfl
    · rintro rfl
      cases f' with
      | presence fresh => cases fresh <;> exact reaches _ rfl
      | _ => exact reaches _ rfl

end Sys2Proof.Machine

/-! PROOFS. The window commands, the completion conditions of a window, and UNBOOK (R119 to R124, R140). -/

namespace Sys2Proof.Machine

set_option Elab.async false

/-! ## Completion conditions -/

/-- A record joins a window's event list when a condition holds. -/
def Window.raise (w : Window) (c : Bool) (e : Event) : Window := if c then { w with events := w.events ++ [e] } else w

theorem Window.raise_eq (w : Window) (c : Bool) (e : Event) :
    w.raise c e = { w with events := w.events ++ if c then [e] else [] } := by
  cases c
  · simp [Window.raise]
  · rfl

/-- A WINDOW_HELD at the tail does not count as a WINDOW_FLIPPED. -/
theorem Window.flippedRaised_raise (w : Window) (c : Bool) (i : Fin 16) :
    (w.raise c (.windowHeld i)).flippedRaised = w.flippedRaised := by
  cases c <;> simp [Window.raise, Window.flippedRaised]

/-- The completion conditions raise their records one after the other (R124). -/
theorem Window.complete_eq_raise (w : Window) (i : Fin 16) (inWork : WindowHalf → Nat) :
    let drained := decide (inWork .a = 0 ∧ inWork .b = 0)
    let u := (w.raise (w.holdPending && !w.heldRaised && drained) (.windowHeld i)).raise
      (w.flipPending && !w.flippedRaised && inWork w.published.other = 0) (.windowFlipped i w.published)
    w.complete i inWork = { u.raise (u.state = .closing && drained) (.windowClosed i) with
      state := if u.state = .closing && drained then .closed else u.state } := by
  intro drained u
  have held := w.flippedRaised_raise (w.holdPending && !w.heldRaised && drained) i
  have flip (v : Window) (hf : v.flippedRaised = w.flippedRaised) (hp : v.flipPending = w.flipPending)
      (ho : v.published = w.published) : v.raise (v.flipPending && !v.flippedRaised && inWork v.published.other = 0)
        (.windowFlipped i v.published) = v.raise (w.flipPending && !w.flippedRaised && inWork w.published.other = 0)
        (.windowFlipped i w.published) := by rw [hf, hp, ho]
  have raised := flip _ held (by rw [Window.raise_eq]) (by rw [Window.raise_eq])
  have start : w.complete i inWork = if u.state = .closing && drained then
      { u with state := .closed, events := u.events ++ [.windowClosed i] } else u := by
    rw [show u = _ from raised.symm]
    rfl
  refine start.trans ?_
  unfold Window.raise
  split <;> rfl

/-- What the completion conditions leave of a window's record (R124). -/
theorem Window.complete_eq (w : Window) (i : Fin 16) (inWork : WindowHalf → Nat) :
    w.complete i inWork = { w with
      events := w.events ++
        (if w.holdPending = true ∧ w.heldRaised = false ∧ inWork .a = 0 ∧ inWork .b = 0 then [.windowHeld i] else []) ++
        (if w.flipPending = true ∧ w.flippedRaised = false ∧ inWork w.published.other = 0 then
          [.windowFlipped i w.published] else []) ++
        (if w.state = .closing ∧ inWork .a = 0 ∧ inWork .b = 0 then [.windowClosed i] else [])
      state := if w.state = .closing ∧ inWork .a = 0 ∧ inWork .b = 0 then .closed else w.state } := by
  rw [Window.complete_eq_raise]
  simp only [Window.raise_eq, Bool.and_eq_true, Bool.not_eq_true', decide_eq_true_eq, and_assoc]

/-- Settles O23: the record after the test, and no other. -/
theorem windowCompletionConditions : Obligations.WindowCompletionConditions := by
  intro i s w drained
  refine ⟨_, rfl, ?_, ?_, ?_⟩
  · rw [testWindow_window_self, Window.complete_eq]
  · rw [testWindow_window_self, Window.complete_eq]
  · rw [testWindow_window_self, testWindow, Window.complete_eq]

/-- A window in CLOSING or CLOSED stays unadvertised through the test. -/
theorem advertised_complete_of_closing (w : Window) (i : Fin 16) (inWork : WindowHalf → Nat) :
    (({ w with state := .closing } : Window).complete i inWork).advertised = false := by
  rw [Window.complete_eq]
  dsimp only
  split <;> rfl

/-! ## The arguments of the window commands (R119 to R123) -/

theorem Arguments.window_of_field {a : Arguments} {i : Fin 16} (h : field a[0] 0 8 = i.val) : a.window = some i := by
  simp [Arguments.window, h]

theorem Arguments.window_eq_none {a : Arguments} (h : 15 < field a[0] 0 8) : a.window = none := by
  simp only [Arguments.window, dite_eq_right_iff, reduceCtorEq, imp_false]
  omega

/-- Settles O24, by the window named and its state. -/
theorem holdReleaseFlip : Obligations.HoldReleaseFlip := by
  intro s idle n
  refine ⟨fun out c hc => ?_, fun i hi => ?_⟩
  · have none := Arguments.window_eq_none (a := s.port.arguments) out
    simp only [List.mem_cons, List.not_mem_nil, or_false] at hc
    rcases hc with rfl | rfl | rfl | rfl
    · exact issue_taken idle (by rw [takeHold, none])
    · exact issue_taken idle (by rw [takeRelease, none])
    · exact issue_taken idle (by rw [takeFlip, none])
    · exact issue_taken idle (by rw [takeClose, none])
  · intro w
    have named := Arguments.window_of_field (a := s.port.arguments) hi.symm
    have tested (x : Window) : testWindow i (s.setWindow i x) = s.setWindow i (x.complete i (s.inWork i)) := by
      rw [testWindow, State.setWindow_window_self, State.setWindow_window_set]
      rfl
    have hold : takeHold s.port.arguments s = if w.state = .opened then
        (.accepted, testWindow i (s.setWindow i { w with state := .held, holdPending := true })) else (.badState, s) := by
      rw [takeHold, named]
    have release : takeRelease s.port.arguments s = if w.state ≠ .held then (.badState, s)
        else if w.holdPending then (.busy, s) else (.done, s.setWindow i { w with state := .opened }) := by
      rw [takeRelease, named]
    have flip : takeFlip s.port.arguments s = if !w.paired || !w.advertised then (.badState, s)
        else if w.flipPending then (.busy, s)
        else (.accepted, testWindow i (s.setWindow i { w with
          published := w.published.other, flipPending := true })) := by
      rw [takeFlip, named]
    refine ⟨fun h => issue_taken idle ?_, fun h => issue_taken idle ?_, fun h => issue_taken idle ?_,
      fun h hp => issue_taken idle ?_, fun h hp => issue_taken idle ?_, fun h => issue_taken idle ?_,
      fun hd ha hp => issue_taken idle ?_, fun hd ha hp => issue_taken idle ?_⟩
    · rw [hold, if_neg h]
    · rw [hold, if_pos h, tested]
    · rw [release, if_pos h]
    · rw [release, if_neg (not_not.mpr h), if_pos hp]
    · rw [release, if_neg (not_not.mpr h), if_neg (by rw [hp]; decide)]
    · rw [flip, if_pos (by obtain h | h := h <;> simp [h])]
    · rw [flip, if_neg (by simp [hd, ha]), if_pos hp]
    · rw [flip, if_neg (by simp [hd, ha]), if_neg (by rw [hp]; decide), tested]

/-! ## A change of the advertised mask -/

/-- What a change of the advertised mask does to station and trunk, by whether the station is on the trunk (R151). -/
theorem maskChanged_of_onTrunk {s : State} (on : s.onTrunk = true) (open_ : s.station.farewellOffered = false) :
    maskChanged s = { s with
      station := { s.station with
        pending := some (s.madePresence false)
        presenceTimer := .running s.station.config.presenceInterval.toNat }
      trunk := { s.trunk with line := s.trunk.line.map Try.replaced } } := by
  rw [maskChanged, if_pos on, ordinaryPresence_eq open_]

theorem maskChanged_of_off {s : State} (h : s.onTrunk = false ∨ s.station.farewellOffered = true) :
    maskChanged s = s := by
  unfold maskChanged ordinaryPresence
  obtain h | h := h
  · rw [if_neg (by rw [h]; decide)]
  · rw [if_pos h, ite_self]

/-- A change of the mask is one of station and trunk alone. -/
theorem maskChanged_frame (s : State) :
    maskChanged s = { s with station := (maskChanged s).station, trunk := (maskChanged s).trunk } := by
  by_cases h : s.onTrunk = true ∧ s.station.farewellOffered = false
  · rw [maskChanged_of_onTrunk h.1 h.2]
  · rw [maskChanged_of_off (by cases e : s.onTrunk <;> simp_all)]

/-- What WINDOW_SET and CLOSE make of station and trunk: with a window of `s` written, the mask as it then stands is
advertised (R151). -/
theorem maskChanged_setWindow {s t : State} (i : Fin 16) (w : Window)
    (station : t.station = (maskChanged (s.setWindow i w)).station)
    (trunk : t.trunk = (maskChanged (s.setWindow i w)).trunk)
    (windows : ∀ v, ((s.setWindow i w).window v).advertised = (t.window v).advertised) :
    (s.onTrunk = true → s.station.farewellOffered = false → s.PresenceMade t false ∧
      t.station = { s.station with
        pending := t.station.pending
        presenceTimer := .running s.station.config.presenceInterval.toNat } ∧
      t.trunk = { s.trunk with line := s.trunk.line.map Try.replaced }) ∧
    (s.onTrunk = false ∨ s.station.farewellOffered = true → t.station = s.station ∧ t.trunk = s.trunk) := by
  refine ⟨fun on open_ => ?_, fun off => ?_⟩
  · have made := maskChanged_of_onTrunk (s := s.setWindow i w) on open_
    rw [made] at station trunk
    rw [trunk]
    refine ⟨presenceMade_of (s.setWindow i w) (by rw [station]) rfl (by rw [station]) windows, ?_, rfl⟩
    rw [station]
    rfl
  · rw [maskChanged_of_off (s := s.setWindow i w) off] at station trunk
    exact ⟨station, trunk⟩

/-- Settles O25, by the window's state. -/
theorem closeEffect : Obligations.CloseEffect := by
  intro s i idle hi w
  have named := Arguments.window_of_field (a := s.port.arguments) hi
  refine ⟨fun h => issue_taken idle ?_, fun h => issue_taken idle ?_, fun h => ?_⟩
  · rw [takeClose, named]
    dsimp only
    rw [h]
  · rw [takeClose, named]
    dsimp only
    rw [h]
  · let u := s.setWindow i { w with state := .closing }
    have taken : takeClose s.port.arguments s = (.accepted, testWindow i (maskChanged u)) := by
      rw [takeClose, named]
      dsimp only
      obtain h | h := h <;> rw [h]
    have windows (v : Fin 16) : (testWindow i (maskChanged u)).window v =
        if v = i then ({ w with state := .closing } : Window).complete i (s.inWork i) else s.window v := by
      rw [maskChanged_frame, testWindow, State.setWindow_window]
      by_cases hv : i = v
      · subst hv
        rw [if_pos rfl, if_pos rfl]
        show (u.window i).complete i (s.inWork i) = _
        rw [State.setWindow_window_self]
      · rw [if_neg hv, if_neg (Ne.symm hv)]
        exact State.setWindow_window_of_ne s _ hv
    have advertised (v : Fin 16) : (u.window v).advertised = ((testWindow i (maskChanged u)).window v).advertised := by
      rw [windows, State.setWindow_window]
      by_cases hv : i = v
      · rw [if_pos hv, if_pos hv.symm, advertised_complete_of_closing]
        rfl
      · rw [if_neg hv, if_neg (Ne.symm hv)]
    obtain ⟨on, off⟩ := maskChanged_setWindow (s := s) (t := (testWindow i (maskChanged u)).withResult .accepted) i
      { w with state := .closing } rfl rfl advertised
    have own : ((testWindow i (maskChanged u)).withResult .accepted).window i =
        ({ w with state := .closing } : Window).complete i (s.inWork i) := (windows i).trans (if_pos rfl)
    have frame := maskChanged_frame u
    refine ⟨_, issue_taken idle taken, ?_, own, ?_, fun j hj => (windows j).trans (if_neg hj), on, off, ?_⟩
    · rw [frame]
      rfl
    · rw [own]
      exact advertised_complete_of_closing ..
    · rw [frame]
      exact ⟨rfl, rfl, rfl, rfl, rfl, rfl, rfl, rfl, rfl⟩

/-! ## WINDOW_SET -/

/-- Some argument of WINDOW_SET is out of its range: the window, the access, or a base that is not on a word (R119). -/
def Arguments.WindowSetOutOfRange (a : Arguments) : Prop :=
  15 < field a[0] 0 5 ∨ field a[0] 5 2 = 0 ∨ field a[1] 0 2 ≠ 0 ∨ (bit a[0] 7 = true ∧ field a[2] 0 2 ≠ 0)

theorem field_lt (w : Word) (lo len : Nat) : field w lo len < 2 ^ len := (w.extractLsb' lo len).isLt

/-- The access codes 1 to 3 (R119, R195). -/
theorem Arguments.access_of_ne_zero {a : Arguments} (h : field a[0] 5 2 ≠ 0) :
    ∃ access, a.access = some access ∧
      [Access.readOnly, .writeOnly, .readWrite][field a[0] 5 2 - 1]? = some access := by
  have small : field a[0] 5 2 < 4 := field_lt a[0] 5 2
  unfold Arguments.access
  generalize field a[0] 5 2 = n at h small
  obtain rfl | rfl | rfl : n = 1 ∨ n = 2 ∨ n = 3 := by omega
  · exact ⟨_, rfl, rfl⟩
  · exact ⟨_, rfl, rfl⟩
  · exact ⟨_, rfl, rfl⟩

theorem Arguments.access_of_zero {a : Arguments} (h : field a[0] 5 2 = 0) : a.access = none := by
  rw [Arguments.access, h]
  rfl

theorem Arguments.setWindow_of_field {a : Arguments} {i : Fin 16} (h : field a[0] 0 5 = i.val) : a.setWindow = some i := by
  simp [Arguments.setWindow, h]

theorem Arguments.windowSet_of_outOfRange {a : Arguments} (h : a.WindowSetOutOfRange) : a.windowSet = none := by
  unfold Arguments.windowSet
  split
  · next w access hw ha =>
    have named : ¬ 15 < field a[0] 0 5 := by
      intro out
      simp only [Arguments.setWindow] at hw
      rw [dif_neg (by omega)] at hw
      cases hw
    have typed : field a[0] 5 2 ≠ 0 := fun zero => by rw [Arguments.access_of_zero zero] at ha; cases ha
    refine if_pos ?_
    simp only [Bool.or_eq_true, Bool.and_eq_true, bne_iff_ne]
    obtain h | h | h | h := h
    · exact absurd h named
    · exact absurd h typed
    · exact .inl h
    · exact .inr h
  · rfl

theorem Arguments.windowSet_of_inRange {a : Arguments} {i : Fin 16} (h : ¬ a.WindowSetOutOfRange)
    (hi : field a[0] 0 5 = i.val) : ∃ access, a.windowSet = some (i, access) ∧
      [Access.readOnly, .writeOnly, .readWrite][field a[0] 5 2 - 1]? = some access := by
  simp only [Arguments.WindowSetOutOfRange, not_or] at h
  obtain ⟨-, typed, baseA, baseB⟩ := h
  obtain ⟨access, ha, code⟩ := Arguments.access_of_ne_zero typed
  refine ⟨access, ?_, code⟩
  simp only [Arguments.windowSet, Arguments.setWindow_of_field hi, ha]
  refine if_neg ?_
  simp only [Bool.or_eq_true, Bool.and_eq_true, bne_iff_ne, not_or]
  exact ⟨baseA, baseB⟩

/-- The permit set of WINDOW_SET over both registers: stations 1-32 in argument 3, 33-40 in bits 15:8 of argument 0. -/
theorem Arguments.permit_getLsbD (a : Arguments) (i : Nat) :
    a.permit.getLsbD i = if i < 32 then a[3].getLsbD i else (a[0].extractLsb' 8 8).getLsbD (i - 32) := by
  have e : a.permit.getLsbD i = (a[0].extractLsb' 8 8 ++ a[3]).getLsbD i := rfl
  rw [e, BitVec.getLsbD_append]

theorem Arguments.permit_low (a : Arguments) {n : Nat} (h1 : 1 ≤ n) (h2 : n ≤ 32) :
    (1 ≤ n && a.permit.getLsbD (n - 1)) = bit a[3] (n - 1) := by
  rw [Arguments.permit_getLsbD, if_pos (by omega)]
  simp [h1, bit]

theorem Arguments.permit_high (a : Arguments) {n : Nat} (h1 : 33 ≤ n) (h2 : n ≤ 40) :
    (1 ≤ n && a.permit.getLsbD (n - 1)) = bit a[0] (n - 25) := by
  have within : n - 1 - 32 < 8 := by omega
  have at_ : 8 + (n - 1 - 32) = n - 25 := by omega
  have least : 1 ≤ n := by omega
  rw [Arguments.permit_getLsbD, if_neg (by omega), BitVec.getLsbD_extractLsb', at_]
  simp [least, within, bit]

/-- Settles O22, by the ranges of the arguments and then by the window's state and records. -/
theorem windowSetEffect : Obligations.WindowSetEffect := by
  intro s idle a outOfRange
  refine ⟨fun out => issue_taken idle ?_, fun i inRange hi => ?_⟩
  · have none : Arguments.windowSet s.port.arguments = none := Arguments.windowSet_of_outOfRange out
    rw [takeWindowSet, none]
  · obtain ⟨access, named, code⟩ := Arguments.windowSet_of_inRange inRange hi
    have taken : takeWindowSet a s = if (s.window i).state ≠ .closed then (.badState, s)
        else if (s.window i).events ≠ [] then (.busy, s)
        else (.done, maskChanged (s.setWindow i ((s.window i).define access a))) := by
      rw [takeWindowSet, named]
    refine ⟨fun h => issue_taken idle (taken.trans (if_pos h)), fun h he => issue_taken idle ?_,
      fun h he => ?_⟩
    · exact taken.trans ((if_neg (not_not.mpr h)).trans (if_pos he))
    · have written := taken.trans ((if_neg (not_not.mpr h)).trans (if_neg (not_not.mpr he)))
      let x := (s.window i).define access a
      let t := (maskChanged (s.setWindow i x)).withResult .done
      have frame := maskChanged_frame (s.setWindow i x)
      have windows (v : Fin 16) : t.window v = (s.setWindow i x).window v := by
        show (maskChanged (s.setWindow i x)).window v = _
        rw [frame]
        rfl
      have own : t.window i = x := (windows i).trans (State.setWindow_window_self ..)
      obtain ⟨on, off⟩ := maskChanged_setWindow (s := s) (t := t) i x rfl rfl fun v => by rw [windows]
      refine ⟨t, issue_taken idle written, ?_, ?_, ?_, ?_, ?_, ?_, ?_, fun n h1 h2 => ?_, fun n h1 h2 => ?_,
          ?_, ?_, ?_, ?_, fun v hv => ?_, on, off, ?_⟩
      · show ((maskChanged (s.setWindow i x)).withResult .done).port = _
        rw [frame]
        rfl
      · exact congrArg Window.state own
      · exact code.trans (congrArg some (congrArg Window.access own).symm)
      · exact congrArg Window.paired own
      · exact congrArg Window.baseA own
      · exact congrArg Window.baseB own
      · exact congrArg Window.size own
      · exact (congrArg (Window.permits · n) own).trans (Arguments.permit_low a h1 h2)
      · exact (congrArg (Window.permits · n) own).trans (Arguments.permit_high a h1 h2)
      · exact congrArg Window.published own
      · exact congrArg Window.holdPending own
      · exact congrArg Window.flipPending own
      · exact (congrArg Window.events own).trans he
      · exact (windows v).trans (State.setWindow_window_of_ne s _ (Ne.symm hv))
      · show ((maskChanged (s.setWindow i x)).withResult .done).listStore = _ ∧ _
        rw [show t = (maskChanged (s.setWindow i x)).withResult .done from rfl, frame]
        exact ⟨rfl, rfl, rfl, rfl, rfl, rfl, rfl, rfl, rfl⟩

/-! ## UNBOOK (R140, R195) -/

theorem Arguments.remove_of_neither {a : Arguments} (h1 : field a[0] 8 8 ≠ 1) (h2 : field a[0] 8 8 ≠ 2) :
    a.remove = none := by
  unfold Arguments.remove
  split
  · contradiction
  · contradiction
  · rfl

theorem Arguments.remove_of_form {a : Arguments} (h : field a[0] 8 8 = 1 ∨ field a[0] 8 8 = 2) :
    a.remove = some (decide (field a[0] 8 8 = 2)) := by
  obtain h | h := h <;> simp [Arguments.remove, h]

/-- The bits of a number placed in a word. -/
theorem place_getLsbD (n lo i : Nat) :
    (place n lo).getLsbD i = (decide (i < 32) && decide (lo ≤ i) && n.testBit (i - lo)) := by
  simp only [place, BitVec.getLsbD_shiftLeft, BitVec.getLsbD_ofNat]
  by_cases h : lo ≤ i ∧ i < 32
  · simp [h.1, h.2, show ¬ i < lo by omega, show i - lo < 32 by omega]
  · by_cases hi : i < 32
    · simp [hi, show i < lo by omega, show ¬ lo ≤ i by omega]
    · simp [hi]

/-- A field of a word is the number whose bits it holds. -/
theorem field_eq_of_testBit {w : Word} {lo len n : Nat} (hn : n < 2 ^ len)
    (h : ∀ i < len, w.getLsbD (lo + i) = n.testBit i) : field w lo len = n := by
  refine Nat.eq_of_testBit_eq fun i => ?_
  rw [field, ← BitVec.getLsbD, BitVec.getLsbD_extractLsb']
  by_cases hi : i < len
  · simp [hi, h i hi]
  · have : n < 2 ^ i := Nat.lt_of_lt_of_le hn (Nat.pow_le_pow_right (by decide) (Nat.le_of_not_lt hi))
    simp [hi, Nat.testBit_lt_two_pow this]

theorem testBit_of_lt_two {n i : Nat} (hn : n < 2) (hi : 0 < i) : n.testBit i = false :=
  Nat.testBit_lt_two_pow (Nat.lt_of_lt_of_le hn (Nat.pow_le_pow_right (n := 2) (by decide) hi))

/-- The bits of the word that UNBOOK returns. -/
theorem bookingWord_getLsbD (s : State) (b : Fin 16) (i : Nat) (hi : i < 32) : (s.bookingWord b).getLsbD i =
    ((s.booking b).state.code.testBit i || (decide (i = 8) && (s.booking b).latch) ||
      (decide (i = 9) && s.hasWaiter b) || (decide (16 ≤ i) && (s.booking b).matchCount.testBit (i - 16))) := by
  have flag (x : Bool) (lo : Nat) : (flagAt x lo).getLsbD i = (decide (i = lo) && x) := by
    rw [flagAt, place_getLsbD]
    obtain h | rfl | h := Nat.lt_trichotomy i lo
    · simp [Nat.not_le.mpr h, Nat.ne_of_lt h]
    · cases x <;> simp [hi]
    · simp [testBit_of_lt_two (Bool.toNat_lt x) (Nat.sub_pos_of_lt h), Nat.ne_of_gt h]
  simp only [State.bookingWord, BitVec.getLsbD_or, flag, place_getLsbD, hi, decide_true, Bool.true_and, Nat.zero_le,
    Nat.sub_zero]

/-- The fields of the word that UNBOOK returns. -/
theorem bookingWord_fields (s : State) (b : Fin 16) :
    field (s.bookingWord b) 0 2 = (s.booking b).state.code ∧ bit (s.bookingWord b) 8 = (s.booking b).latch ∧
      bit (s.bookingWord b) 9 = s.hasWaiter b ∧
      ((s.booking b).matchCount < 65536 → field (s.bookingWord b) 16 16 = (s.booking b).matchCount) := by
  have small : (s.booking b).state.code < 2 ^ 2 := by cases (s.booking b).state <;> decide
  have clear {i : Nat} (hi : 2 ≤ i) : (s.booking b).state.code.testBit i = false :=
    Nat.testBit_lt_two_pow (Nat.lt_of_lt_of_le small (Nat.pow_le_pow_right (by decide) hi))
  refine ⟨field_eq_of_testBit small fun i hi => ?_, ?_, ?_, fun hm => field_eq_of_testBit hm fun i hi => ?_⟩
  · rw [bookingWord_getLsbD _ _ _ (by omega)]
    simp [show i ≠ 8 by omega, show i ≠ 9 by omega, show ¬ 16 ≤ i by omega]
  · rw [bit, bookingWord_getLsbD _ _ _ (by omega), clear (by omega)]
    simp
  · rw [bit, bookingWord_getLsbD _ _ _ (by omega), clear (by omega)]
    simp
  · rw [bookingWord_getLsbD _ _ _ (by omega), clear (by omega)]
    simp [show 16 + i ≠ 8 by omega, show 16 + i ≠ 9 by omega]

/-- Settles O27: the word returned, and then what each form does. -/
theorem unbookEffect : Obligations.UnbookEffect := by
  intro s idle a
  refine ⟨fun out => issue_taken idle ?_, fun b hb => ?_⟩
  · obtain out | ⟨query, remove⟩ := out
    · have none : Arguments.booking a = none := (Arguments.booking_eq_none_iff a).mpr out
      rw [takeUnbook, none]
    · have none : Arguments.remove a = none := Arguments.remove_of_neither query remove
      unfold takeUnbook
      rw [none]
      cases Arguments.booking s.port.arguments <;> rfl
  · intro waiting
    have named : Arguments.booking a = some b := Arguments.booking_of_field hb
    obtain ⟨state, latch, waiter, count⟩ := bookingWord_fields s b
    have taken (h : field a[0] 8 8 = 1 ∨ field a[0] 8 8 = 2) :
        takeUnbook a s =
          let returned := { s with port := { s.port with arguments := a.set 1 (s.bookingWord b) } }
          if !decide (field a[0] 8 8 = 2) then (.done, returned)
          else if s.hasWaiter b then (.busy, returned)
          else (.done, returned.setBooking b (s.booking b).remove) := by
      rw [takeUnbook, named, Arguments.remove_of_form h]
    have ends {u : State} {r : CommandResult} (h : takeUnbook a s = (r, u)) (hu : u.port.executing = none) :
        exec .unbook s = .next { u with port := { u.port with result := r } } :=
      (issue_taken idle h).trans (congrArg Host.Outcome.next (withResult_of_idle hu r))
    let returned : State := { s with port := { s.port with arguments := a.set 1 (s.bookingWord b) } }
    refine ⟨s.bookingWord b, ?_, latch, ?_, count, fun query => ends (u := returned) ((taken (.inl query)).trans ?_) idle,
      fun remove waits => ends (u := returned) ((taken (.inr remove)).trans ?_) idle,
      fun remove free => ends (u := returned.setBooking b (s.booking b).remove) ((taken (.inr remove)).trans ?_) idle⟩
    · rw [state]
      cases (s.booking b).state <;> rfl
    · rw [waiter]; exact hasWaiter_iff s b
    · simp [query, returned]
    · simp [remove, (hasWaiter_iff s b).mpr waits, returned]
    · simp [remove, mt (hasWaiter_iff s b).mp free, returned]

end Sys2Proof.Machine

/-! PROOFS. The loss of a peer, and what the outcome of one tag's attempt leaves of the tags: each other tag is as it was or
has ended, and the tag itself is no longer outstanding (R63, R68, R70, R71, R75, R154). -/

namespace Sys2Proof.Machine

set_option Elab.async false

/-- A tag whose transaction has ended: FREE or COOLING (R68). -/
def Tag.ended (g : Tag) : Prop := g.state = .free ∨ g.state = .cooling

/-- A tag with no attempt under way: ended, in BACKOFF, or completing. -/
def Tag.settled (g : Tag) : Prop := (g.state ≠ .queued ∧ g.state ≠ .sent) ∨ g.completing = true

/-- Each tag is as it was, or has ended. -/
structure TagsRest (s t : State) : Prop where
  tag : ∀ k, t.tag k = s.tag k ∨ (t.tag k).ended

/-- Each other tag is as it was or has ended, and no attempt of this one is under way. -/
structure Settles (k : Fin 16) (s t : State) : Prop where
  others : ∀ j, j ≠ k → t.tag j = s.tag j ∨ (t.tag j).ended
  own : (t.tag k).settled

theorem Tag.ended.settled {g : Tag} (h : g.ended) : g.settled := by
  left; obtain h | h := h <;> rw [h] <;> exact ⟨nofun, nofun⟩

namespace TagsRest

theorem refl (s : State) : TagsRest s s := ⟨fun _ => .inl rfl⟩

theorem of_tags {s t : State} (h : ∀ k, t.tag k = s.tag k) : TagsRest s t :=
  ⟨fun k => .inl (h k)⟩

theorem trans {s t u : State} (h : TagsRest s t) (k : TagsRest t u) : TagsRest s u := by
  refine ⟨fun i => ?_⟩
  obtain e | e := k.tag i
  · rw [e]; exact h.tag i
  · exact .inr e

theorem foldl {α : Type} {f : State → α → State} (hf : ∀ s a, TagsRest s (f s a)) (l : List α) (s : State) :
    TagsRest s (l.foldl f s) := by
  induction l generalizing s with
  | nil => exact refl s
  | cons a l ih => exact (hf s a).trans (ih _)

end TagsRest

theorem Settles.rest {k : Fin 16} {s t u : State} (h : Settles k s t) (l : TagsRest t u) : Settles k s u := by
  refine ⟨fun j hj => ?_, ?_⟩
  · obtain e | e := l.tag j
    · rw [e]; exact h.others j hj
    · exact .inr e
  · obtain e | e := l.tag k
    · rw [e]; exact h.own
    · exact e.settled

theorem TagsRest.settles {k : Fin 16} {s t u : State} (h : TagsRest s t) (l : Settles k t u) : Settles k s u := by
  refine ⟨fun j hj => ?_, l.own⟩
  obtain e | e := l.others j hj
  · rw [e]; exact h.tag j
  · exact .inr e

/-- A tag written: the others are as they were. -/
theorem setTag_settles (k : Fin 16) (g : Tag) (s : State) (h : g.settled) : Settles k s (s.setTag k g) :=
  ⟨fun _ hj => .inl (State.setTag_tag_of_ne s g (Ne.symm hj)), by rw [State.setTag_tag_self]; exact h⟩

theorem releasedTag_ended (s : State) (k : Fin 16) : (s.releasedTag k).ended := by
  unfold Tag.ended State.releasedTag
  cases (s.tag k).unanswered
  · exact .inl rfl
  · exact .inr rfl

theorem releaseTag_settles (k : Fin 16) (s : State) : Settles k s (releaseTag k s) :=
  setTag_settles k _ s (releasedTag_ended s k).settled

theorem releaseTag_tagsRest (k : Fin 16) (s : State) : TagsRest s (releaseTag k s) := by
  refine ⟨fun j => ?_⟩
  by_cases h : k = j
  · subst h
    exact .inr (by rw [releaseTag_eq, State.setTag_tag_self]; exact releasedTag_ended s k)
  · exact .inl (releaseTag_tag_of_ne h s)

/-! ## Operations on a channel -/

section
variable (c : Fin 4)

theorem setChannel_tagsRest (ch : Channel) (s : State) : TagsRest s (s.setChannel c ch) := .of_tags fun _ => rfl

theorem segmentFailed_tagsRest (n : Nat) (s : State) : TagsRest s (segmentFailed c n s) := by
  unfold segmentFailed; split
  · exact setChannel_tagsRest ..
  · exact .refl s

theorem endBackoffTag_tagsRest (s : State) (k : Fin 16) : TagsRest s (endBackoffTag c s k) := by
  unfold endBackoffTag; split
  · exact (releaseTag_tagsRest k s).trans (segmentFailed_tagsRest ..)
  · exact .refl s

theorem failChannel_tagsRest (e : HaltError) (d : HaltDetail) (n : Nat) (s : State) :
    TagsRest s (failChannel c e d n s) := by
  have fails (ch : Channel) : TagsRest s (endBackoffTags c ((detachNotices c s).setChannel c ch)) :=
    have cut : TagsRest s ((detachNotices c s).setChannel c ch) := .of_tags fun _ => rfl
    cut.trans (.foldl (endBackoffTag_tagsRest c) _ _)
  unfold failChannel; split
  · exact fails _
  · exact fails _
  · exact segmentFailed_tagsRest ..
  · exact .refl s

theorem endUnmet_tagsRest (r : Result) (e : HaltError) (d : HaltDetail) (s : State) :
    TagsRest s (endUnmet c r e d s) := by
  unfold endUnmet; split
  · exact .of_tags fun _ => rfl
  · exact failChannel_tagsRest ..

theorem beginWait_tagsRest (b : Fin 16) (s : State) : TagsRest s (beginWait c b s).1 := by
  unfold beginWait
  dsimp only
  split
  · exact .of_tags fun _ => rfl
  · split
    · exact endUnmet_tagsRest ..
    · exact setChannel_tagsRest ..

theorem enterEntry_tagsRest (s : State) : TagsRest s (enterEntry c s).1 := by
  unfold enterEntry
  dsimp only
  split
  · exact .refl s
  · exact .refl s
  · exact .refl s
  · exact .refl s
  · exact setChannel_tagsRest ..
  · split
    · exact beginWait_tagsRest ..
    · exact .refl s
  · exact setChannel_tagsRest ..
  · exact setChannel_tagsRest ..
  · exact .refl s

theorem runFrom_tagsRest (left : Nat) (s : State) : TagsRest s (runFrom left c s) := by
  induction left generalizing s with
  | zero => exact .of_tags fun _ => rfl
  | succ left ih =>
    simp only [runFrom]
    split
    · exact .of_tags fun _ => rfl
    · have entered := (setChannel_tagsRest c
        ((s.channel c).beginAt (1024 - (left + 1)) (s.entry (1024 - (left + 1)))) s).trans (enterEntry_tagsRest c _)
      split
      · next t ht => rw [ht] at entered; exact entered.trans (ih t)
      · next t ht => rw [ht] at entered; exact entered

theorem finishEntry_tagsRest (s : State) : TagsRest s (finishEntry c s) := by
  unfold finishEntry
  dsimp only
  split
  · exact runFrom_tagsRest ..
  · exact setChannel_tagsRest ..

theorem finishIfResolved_tagsRest (s : State) : TagsRest s (finishIfResolved c s) := by
  unfold finishIfResolved
  dsimp only
  split
  · exact finishEntry_tagsRest ..
  · exact .refl s

/-! ## Outcomes -/

theorem askWrite_settles (k : Fin 16) (r : Option SweepRecord) (w : WriteStage) (s : State) :
    Settles k s (askWrite c k r w s) :=
  (setTag_settles k { s.tag k with completing := true, timer := .stopped } s (.inr rfl)).rest (.of_tags fun _ => rfl)

theorem beginRecord_settles (k : Fin 16) (r : Result) (s : State) : Settles k s (beginRecord c k r s) := by
  have asked (u : State) (hu : TagsRest s u) (rec : Option SweepRecord) (w : WriteStage) :
      Settles k s (askWrite c k rec w u) := hu.settles (askWrite_settles c k rec w u)
  unfold beginRecord
  dsimp only
  generalize (if r = Result.accepted then List.take (s.tag k).count (s.tag k).payload else []) = words
  split
  · refine asked _ ?_ _ _
    exact .of_tags fun _ => rfl
  · split
    · refine asked _ ?_ _ _
      exact .of_tags fun _ => rfl
    · refine asked _ ?_ _ _
      exact .of_tags fun _ => rfl
    · refine TagsRest.settles ?_
        ((releaseTag_settles k _).rest ((setChannel_tagsRest ..).trans (failChannel_tagsRest ..)))
      exact .of_tags fun _ => rfl

theorem sweepOutcome_settles (k : Fin 16) (r : Result) (s : State) : Settles k s (sweepOutcome c k r s) := by
  unfold sweepOutcome
  dsimp only
  split
  · exact beginRecord_settles ..
  · split
    · exact (releaseTag_settles k s).rest (.of_tags fun _ => rfl)
    · exact (releaseTag_settles k s).rest (.of_tags fun _ => rfl)

theorem runningOutcome_settles (k : Fin 16) (r : Result) (s : State) : Settles k s (runningOutcome c k r s) := by
  have resolved (u : State) (hu : ∀ j, u.tag j = (releaseTag k s).tag j) : Settles k s (finishIfResolved c u) :=
    (releaseTag_settles k s).rest ((TagsRest.of_tags hu).trans (finishIfResolved_tagsRest c u))
  unfold runningOutcome
  dsimp only
  split
  · exact sweepOutcome_settles ..
  · split
    · exact setTag_settles _ _ _ (.inl ⟨nofun, nofun⟩)
    · split
      · exact askWrite_settles ..
      · exact resolved _ fun _ => rfl
    · exact resolved _ fun _ => rfl
    · exact (releaseTag_settles k s).rest (failChannel_tagsRest ..)

theorem failingOutcome_settles (k : Fin 16) (r : Result) (s : State) : Settles k s (failingOutcome c k r s) := by
  unfold failingOutcome
  dsimp only
  split
  · exact sweepOutcome_settles ..
  · split
    · split
      · exact askWrite_settles ..
      · exact (releaseTag_settles k s).rest (.of_tags fun _ => rfl)
    · split
      · exact (releaseTag_settles k s).rest (.of_tags fun _ => rfl)
      · exact (releaseTag_settles k s).rest (segmentFailed_tagsRest ..)

end

/-- The outcome of an attempt of an owned tag. -/
theorem attemptOutcome_settles (k : Fin 16) (r : Result) (s : State) (h : (s.tag k).owner ≠ none) :
    Settles k s (attemptOutcome k r s) := by
  unfold attemptOutcome
  dsimp only
  generalize hu : State.setTag (withdrawTry (TryFrame.isRequestOf k) s) k _ = u
  have own : (u.tag k).owner = (s.tag k).owner := by rw [← hu, State.setTag_tag_self, withdrawTry_tag]
  have others (j : Fin 16) (hj : j ≠ k) : u.tag j = s.tag j := by
    rw [← hu, State.setTag_tag_of_ne _ _ (Ne.symm hj), withdrawTry_tag]
  have from_ (t : State) (ht : Settles k u t) : Settles k s t :=
    ⟨fun j hj => others j hj ▸ ht.others j hj, ht.own⟩
  split
  · next ho => exact absurd (own ▸ ho) h
  · next d ho =>
    split
    · exact from_ _ (runningOutcome_settles ..)
    · exact from_ _ (failingOutcome_settles ..)
    · exact from_ _ (releaseTag_settles ..)

/-! ## The loss of a peer -/

/-- A tag is reached by the loss of a peer (R70). -/
def Tag.reachedBy (a : Nat) (g : Tag) : Bool := g.owned && !g.completing && g.target = a

theorem tagPeerLost_of_unreached {a : Nat} {s : State} {k : Fin 16} (h : (s.tag k).reachedBy a = false) :
    tagPeerLost a s k = s := by
  unfold tagPeerLost
  exact if_neg (Bool.eq_false_iff.mp h)

/-- Each other tag is as it was or has ended, whoever owns the tag whose attempt ends. -/
theorem attemptOutcome_others (k : Fin 16) (r : Result) (s : State) {j : Fin 16} (hj : j ≠ k) :
    (attemptOutcome k r s).tag j = s.tag j ∨ ((attemptOutcome k r s).tag j).ended := by
  by_cases own : (s.tag k).owner = none
  · left
    simp [attemptOutcome, own, withdrawTry_tag, State.setTag_tag_of_ne _ _ (Ne.symm hj)]
  · exact (attemptOutcome_settles k r s own).others j hj

theorem tagPeerLost_of_reached {a : Nat} {s : State} {k : Fin 16} (h : (s.tag k).reachedBy a = true) :
    tagPeerLost a s k = attemptOutcome k .peerLost (s.setTag k { s.tag k with
      unanswered := (s.tag k).unanswered || (s.tag k).state = .sent || ((s.tag k).state = .queued && (s.tag k).onLine) }) :=
  if_pos h

theorem tagPeerLost_others (a : Nat) (s : State) (k : Fin 16) {j : Fin 16} (hj : j ≠ k) :
    (tagPeerLost a s k).tag j = s.tag j ∨ ((tagPeerLost a s k).tag j).ended := by
  cases h : (s.tag k).reachedBy a with
  | false => rw [tagPeerLost_of_unreached h]; exact .inl rfl
  | true =>
    rw [tagPeerLost_of_reached h]
    obtain e | e := attemptOutcome_others k .peerLost (s.setTag k _) hj
    · exact .inl (e.trans (State.setTag_tag_of_ne _ _ (Ne.symm hj)))
    · exact .inr e

/-- What has become of a tag towards the lost peer: no attempt of it is under way, unless no channel owned it. -/
def Tag.LostWith (a : Nat) (g g' : Tag) : Prop := g.owner ≠ none → g.target = a → g'.settled

theorem Tag.lostWith_of_unreached {a : Nat} {g : Tag} (h : g.reachedBy a = false) : g.LostWith a g := by
  intro _ target
  by_cases owned : g.owned = true
  · right
    simpa [Tag.reachedBy, owned, target] using h
  · left
    constructor <;> intro e <;> exact owned (by simp [Tag.owned, e])

theorem tagPeerLost_own (a : Nat) (s : State) (k : Fin 16) : (s.tag k).LostWith a ((tagPeerLost a s k).tag k) := by
  cases h : (s.tag k).reachedBy a with
  | false => rw [tagPeerLost_of_unreached h]; exact Tag.lostWith_of_unreached h
  | true =>
    intro own _
    rw [tagPeerLost_of_reached h]
    exact (attemptOutcome_settles k .peerLost _ (by rw [State.setTag_tag_self]; exact own)).own

theorem tagPeerLost_ended (a : Nat) (s : State) (k j : Fin 16) (h : (s.tag j).ended) :
    ((tagPeerLost a s k).tag j).ended := by
  by_cases hj : j = k
  · subst hj
    have unreached : (s.tag j).reachedBy a = false := by
      obtain h | h := h <;> simp [Tag.reachedBy, Tag.owned, h]
    rw [tagPeerLost_of_unreached unreached]; exact h
  · obtain e | e := tagPeerLost_others a s k hj
    · rw [e]; exact h
    · exact e

/-- What the loss of a peer at some tags, one after the other, leaves of each. -/
theorem tagPeerLost_foldl_tag (a : Nat) (l : List (Fin 16)) (hl : l.Nodup) (s : State) (k : Fin 16) :
    (k ∉ l → (l.foldl (tagPeerLost a) s).tag k = s.tag k ∨ ((l.foldl (tagPeerLost a) s).tag k).ended) ∧
      (k ∈ l → (s.tag k).LostWith a ((l.foldl (tagPeerLost a) s).tag k)) ∧
      ((s.tag k).ended → ((l.foldl (tagPeerLost a) s).tag k).ended) := by
  induction l generalizing s with
  | nil => exact ⟨fun _ => .inl rfl, nofun, id⟩
  | cons j l ih =>
    obtain ⟨hj, nodup⟩ := List.nodup_cons.mp hl
    obtain ⟨later, inside, ended⟩ := ih nodup (tagPeerLost a s j)
    have keeps := ended ∘ tagPeerLost_ended a s j k
    rw [List.foldl_cons]
    refine ⟨fun h => ?_, fun h => ?_, keeps⟩
    · rw [List.mem_cons, not_or] at h
      obtain e | e := tagPeerLost_others a s j h.1
      · rw [← e]; exact later h.2
      · exact .inr (ended e)
    · by_cases hk : k = j
      · subst hk
        intro own target
        obtain e | e := later hj
        · rw [e]; exact tagPeerLost_own a s k own target
        · exact e.settled
      · have mem : k ∈ l := (List.mem_cons.mp h).resolve_left hk
        intro own target
        obtain e | e := tagPeerLost_others a s j hk
        · exact inside mem (by rw [e]; exact own) (by rw [e]; exact target)
        · exact (ended e).settled

theorem responderPeerLost_tag (a : Nat) (s : State) (k : Fin 16) : (responderPeerLost a s).tag k = s.tag k := by
  unfold responderPeerLost
  dsimp only
  split <;> rfl

/-- The tags after the loss of a peer: none towards it is left with an attempt under way, of those that a channel owned. -/
theorem peerLost_tag (a : Nat) (s : State) (k : Fin 16) : (s.tag k).LostWith a ((peerLost a s).tag k) := by
  rw [peerLost, responderPeerLost_tag]
  exact (tagPeerLost_foldl_tag a _ (List.nodup_finRange 16) s k).2.1 (List.mem_finRange k)

/-- The loss of a peer is handed to the engine and the responder alone. -/
theorem peerLost_frame (i : Fin 40) (s : State) :
    (peerLost (i.val + 1) s).station = s.station ∧ (peerLost (i.val + 1) s).writer = s.writer ∧
      (peerLost (i.val + 1) s).counters = s.counters ∧ (peerLost (i.val + 1) s).listStore = s.listStore ∧
      (peerLost (i.val + 1) s).port = s.port ∧
      (∀ j, (peerLost (i.val + 1) s).memo j = if j = i then none else s.memo j) ∧
      (peerLost (i.val + 1) s).responder.queue = s.responder.queue.map (fun item =>
        if item.source = i.val + 1 then { item with memoDue := false } else item) := by
  have engine : EngineFrame s ((List.finRange 16).foldl (tagPeerLost (i.val + 1)) s) :=
    .foldl (fun s k => tagPeerLost_frame (i.val + 1) s k) _ s
  have index : stationIndex (i.val + 1) = some i := by simp [stationIndex]
  unfold peerLost responderPeerLost
  generalize (List.finRange 16).foldl (tagPeerLost (i.val + 1)) s = u at engine
  simp only [index]
  refine ⟨engine.station, engine.writer, engine.counters, engine.listStore, engine.port, fun j => ?_, ?_⟩
  · rw [State.setMemo_memo]
    by_cases h : i = j
    · simp [h]
    · rw [if_neg h, if_neg (Ne.symm h)]
      simp only [State.memo, engine.responder]
  · show u.responder.queue.map _ = _
    rw [engine.responder]
    rfl

/-- Offering an event changes the writer and the counters alone, by what they are. -/
theorem offerDroppable_eq_of {s t : State} (e : Event) (writer : t.writer = s.writer) (counters : t.counters = s.counters) :
    offerDroppable e t = { t with
      writer := (offerDroppable e s).writer, counters := (offerDroppable e s).counters } := by
  unfold offerDroppable
  rw [writer]
  split
  · rw [← counters]
  · rw [counters]

/-- Settles O19: the entry goes ABSENT, the peer is lost and PEER_LOST(SILENT) is offered. -/
theorem silenceTimerExpiry : Obligations.SilenceTimerExpiry := by
  intro i s present running
  let absent : Peer := { s.peer i with present := false, silence := .stopped }
  let v := s.setPeer i absent
  let u := peerLost (i.val + 1) v
  obtain ⟨station, writer, counters, store, port, memo, queue⟩ := peerLost_frame i v
  have offered := offerDroppable_eq_of (s := s) (t := u) (.peerLost (i.val + 1) .silent) writer counters
  have taken : exec (.silenceTimerExpiry (i.val + 1)) s = .next (offerDroppable (.peerLost (i.val + 1) .silent) u) := by
    refine congrArg Host.Outcome.next ?_
    have index : stationIndex (i.val + 1) = some i := by simp [stationIndex]
    simp only [silenceExpired, index]
    rw [if_pos (by simp [present, isRunning_of_ne_stopped running])]
  have peers (j : Fin 40) :
      (offerDroppable (.peerLost (i.val + 1) .silent) u).peer j = if i = j then absent else s.peer j := by
    rw [offered]
    show (peerLost (i.val + 1) v).peer j = _
    rw [State.peer, station]
    exact State.setPeer_peer s i j absent
  have own := (peers i).trans (if_pos rfl)
  refine ⟨_, taken, congrArg Peer.present own, congrArg Peer.silence own, fun j hj => (peers j).trans (if_neg (Ne.symm hj)),
    ?_⟩
  rw [own]
  refine ⟨?_, fun j hj => ?_, ?_, ?_, fun k owner target state => ?_, ?_, ?_, ?_, ?_, ?_, u, peerLost_peerLost i v, rfl⟩
  · rw [offered]; exact (memo i).trans (if_pos rfl)
  · rw [offered]; exact (memo j).trans (if_neg hj)
  · rw [offered]
    show ∀ item ∈ u.responder.queue, _
    rw [queue]
    intro item hitem source
    obtain ⟨x, -, rfl⟩ := List.mem_map.mp hitem
    split
    · rfl
    · next h => rw [if_neg h] at source; exact absurd source h
  · rw [offered]
    show u.responder.queue.length = _
    rw [queue, List.length_map]
    rfl
  · have tags : (offerDroppable (.peerLost (i.val + 1) .silent) u).tag k = u.tag k := by rw [offered]; rfl
    rw [tags] at state ⊢
    obtain ⟨nq, ns⟩ | c := peerLost_tag (i.val + 1) v k owner target
    · exact absurd state (not_or.mpr ⟨nq, ns⟩)
    · exact c
  · rw [offered]
  · rw [offered]
  · rw [offered]
    show u.station = _
    rw [station]
    rfl
  · rw [offered]; exact store
  · rw [offered]; exact port

end Sys2Proof.Machine

/-! PROOFS. Frames received: the receive checks, and the presence frames (R153, R154, R163, R172). -/

namespace Sys2Proof.Machine

set_option Elab.async false

/-! ## The receive checks and the silence timer -/

theorem checkGood_of_receiveChecks {bytes : List Byte} (h : receiveChecks bytes = true) : checkGood bytes = true := by
  simp only [receiveChecks, Bool.and_eq_true] at h
  exact h.1.1.1

/-- A frame that passes the receive checks, from another station, restarts the silence timer of its source and is routed
(R154, R172). -/
theorem receive_of_good {bytes : List Byte} {s : State} (silent : s.trunk.line = none)
    (checks : receiveChecks bytes = true) (other : sourceOf bytes ≠ s.ownAddress) :
    receive ⟨bytes, s.station.config.rate, false⟩ s = routeFrame bytes (restartSilence (sourceOf bytes) s) := by
  simp [receive, silent, checkGood_of_receiveChecks checks, checks, other]

/-- A frame whose check is bad, or that came at another rate, is a check error (R163, R172). -/
theorem receive_of_bad {bytes : List Byte} {rate : Rate} {changed : Bool} {s : State} (silent : s.trunk.line = none)
    (h : rate ≠ s.station.config.rate ∨ changed = true ∨ checkGood bytes = false) :
    receive ⟨bytes, rate, changed⟩ s = countCheckError s := by
  unfold receive
  rw [if_neg (by simp [silent]), if_pos]
  obtain h | h | h := h <;> simp [h]

/-- A frame that fails another of the receive checks is a check error too, after the silence timer (R154, R172). -/
theorem receive_of_dropped {bytes : List Byte} {s : State} (silent : s.trunk.line = none)
    (good : checkGood bytes = true) (checks : receiveChecks bytes = false) :
    receive ⟨bytes, s.station.config.rate, false⟩ s = countCheckError (restartSilence (sourceOf bytes) s) := by
  simp [receive, silent, good, checks]

theorem stationIndex_succ (i : Fin 40) : stationIndex (i.val + 1) = some i := by simp [stationIndex]

/-- The silence timer of a PRESENT source starts again with three times its interval (R154). -/
theorem restartSilence_of_present {i : Fin 40} {s : State} (h : (s.peer i).present = true) :
    restartSilence (i.val + 1) s = s.setPeer i { s.peer i with silence := .running (3 * (s.peer i).interval.toNat) } := by
  unfold restartSilence
  rw [stationIndex_succ]
  exact if_pos h

/-- The silence timer of a source that is not PRESENT does not start (R154). -/
theorem restartSilence_of_absent {a : Nat} {s : State} (h : ∀ i : Fin 40, a = i.val + 1 → (s.peer i).present = false) :
    restartSilence a s = s := by
  unfold restartSilence
  split
  · next i hi =>
    rw [if_neg (by rw [h i (stationIndex_eq_some hi)]; decide)]
  · rfl

/-- The silence timers are in the roster, and nothing else changes. -/
theorem restartSilence_eq (a : Nat) (s : State) : restartSilence a s = { s with
    station := { s.station with roster := (restartSilence a s).station.roster } } := by
  unfold restartSilence
  split
  · split <;> rfl
  · rfl

theorem restartSilence_ownAddress (a : Nat) (s : State) : (restartSilence a s).ownAddress = s.ownAddress := by
  rw [restartSilence_eq]; rfl

/-! ## Presence frames -/

/-- Any entry written over the one whose silence timer has started again. -/
theorem setPeer_restartSilence (i : Fin 40) (x : Peer) (s : State) :
    (restartSilence (i.val + 1) s).setPeer i x = s.setPeer i x := by
  cases h : (s.peer i).present with
  | true => rw [restartSilence_of_present h, State.setPeer_peer_set]
  | false =>
    rw [restartSilence_of_absent]
    rintro j hj
    obtain rfl : i = j := Fin.ext (by omega)
    exact h

theorem restartSilence_entry (i : Fin 40) (s : State) :
    ((restartSilence (i.val + 1) s).peer i).present = (s.peer i).present ∧
      ((restartSilence (i.val + 1) s).peer i).incarnation = (s.peer i).incarnation := by
  cases h : (s.peer i).present with
  | true => rw [restartSilence_of_present h, State.setPeer_peer_self]; exact ⟨h, rfl⟩
  | false =>
    rw [restartSilence_of_absent]
    · exact ⟨h, rfl⟩
    · rintro j hj
      obtain rfl : i = j := Fin.ext (by omega)
      exact h

/-- The roster and the writer after the entry of a peer has been written, the peer lost and some events offered. -/
theorem peerLost_written (i : Fin 40) (x : Peer) (s : State) :
    let u := peerLost (i.val + 1) (s.setPeer i x)
    u.peer i = x ∧ (∀ j, j ≠ i → u.peer j = s.peer j) ∧ u.memo i = none ∧ u.writer = s.writer ∧
      u.counters = s.counters := by
  obtain ⟨station, writer, counters, -, -, memo, -⟩ := peerLost_frame i (s.setPeer i x)
  refine ⟨?_, fun j hj => ?_, (memo i).trans (if_pos rfl), writer, counters⟩
  · rw [State.peer, station]; exact State.setPeer_peer_self s i x
  · rw [State.peer, station]; exact State.setPeer_peer_of_ne s x (Ne.symm hj)

/-- Settles O20, by the station state, the entry of the source, and the frame's flags and incarnation. -/
theorem Received.presenceArrival : Obligations.PresenceArrival := by
  intro bytes i s silent checks kind source other p received joined
  let restarted := restartSilence (i.val + 1) s
  have received_eq : exec received s = .next (Machine.presenceArrival p restarted) := by
    refine congrArg Host.Outcome.next ?_
    rw [receive_of_good silent checks other, source, routeFrame, kind]
  have quiet : restarted.station.state = s.station.state := (restartSilence_steady _ s).state
  obtain ⟨present_eq, incarnation_eq⟩ := restartSilence_entry i s
  have index : stationIndex p.source = some i := by
    rw [show p.source = sourceOf bytes from rfl, source, stationIndex_succ]
  have named : p.source = i.val + 1 := source
  refine ⟨fun off => ?_, fun on => ?_⟩
  · have ignored : Machine.presenceArrival p restarted = restarted := by
      refine if_neg ?_
      rw [State.onTrunk, quiet]
      obtain off | off := off <;> rw [off] <;> decide
    rw [received_eq, ignored, source]
    refine ⟨rfl, fun sound => ?_⟩
    rw [show restarted = s from restartSilence_of_absent fun j _ => sound.2.1 off j]
  · have taken : Machine.presenceArrival p restarted =
        if !(restarted.peer i).present then
          if p.leaving then restarted
          else offerDroppable joined (restarted.setPeer i p.peer)
        else if p.leaving then
          offerDroppable (.peerLost (i.val + 1) .leaving) (peerLost (i.val + 1)
            (restarted.setPeer i { restarted.peer i with present := false, silence := .stopped }))
        else if p.fresh || (restarted.peer i).incarnation != p.incarnation then
          offerDroppable joined (offerDroppable (.peerLost (i.val + 1) .restarted)
            (peerLost (i.val + 1) (restarted.setPeer i p.peer)))
        else restarted.setPeer i { p.peer with incarnation := (restarted.peer i).incarnation } := by
      have onTrunk : (decide (restarted.station.state = .listening) || restarted.onTrunk) = true := by
        rw [State.onTrunk, quiet]
        obtain on | on | on := on <;> rw [on] <;> decide
      unfold Machine.presenceArrival
      rw [if_pos onTrunk, index]
      simp only [named]
      rfl
    rw [received_eq, taken, present_eq, incarnation_eq, setPeer_restartSilence, setPeer_restartSilence,
      setPeer_restartSilence]
    refine ⟨fun absent leaves => ?_, fun absent stays => ?_, fun present leaves => ?_, fun present stays anew => ?_,
      fun present stays same incarnation => ?_⟩
    · rw [if_pos (by rw [absent]; rfl), if_pos leaves]
      refine congrArg Host.Outcome.next (restartSilence_of_absent fun j hj => ?_)
      obtain rfl : i = j := Fin.ext (by omega)
      exact absent
    · rw [if_pos (by rw [absent]; rfl), if_neg (by rw [stays]; decide)]
    · let gone : Peer := { restarted.peer i with present := false, silence := .stopped }
      obtain ⟨own, others, memo, writer, counters⟩ := peerLost_written i gone s
      have offered := offerDroppable_eq_of (s := s) (t := peerLost (i.val + 1) (s.setPeer i gone))
        (.peerLost (i.val + 1) .leaving) writer counters
      rw [if_neg (by rw [present]; decide), if_pos leaves]
      refine ⟨_, rfl, ?_⟩
      have entry : (offerDroppable (.peerLost (i.val + 1) .leaving)
          (peerLost (i.val + 1) (s.setPeer i gone))).peer i = gone := by rw [offered]; exact own
      refine ⟨congrArg Peer.present entry, congrArg Peer.silence entry, ?_, fun j hj => ?_, ?_, _, ?_, rfl⟩
      · rw [offered]; exact memo
      · rw [offered]; exact others j hj
      · rw [offered]
      · rw [entry]; exact peerLost_peerLost i _
    · obtain ⟨own, others, memo, writer, counters⟩ := peerLost_written i p.peer s
      let u := peerLost (i.val + 1) (s.setPeer i p.peer)
      have lost := offerDroppable_eq_of (s := s) (t := u) (.peerLost (i.val + 1) .restarted) writer counters
      have offered := offerDroppable_eq_of (s := offerDroppable (.peerLost (i.val + 1) .restarted) s)
        (t := offerDroppable (.peerLost (i.val + 1) .restarted) u) joined (by rw [lost]) (by rw [lost])
      have whole := offered.trans (by rw [lost])
      rw [if_neg (by rw [present]; decide), if_neg (by rw [stays]; decide), if_pos (by
        obtain h | h := anew <;> simp [h])]
      refine ⟨_, rfl, ?_, ?_, fun j hj => ?_, ?_, u, peerLost_peerLost i _, rfl⟩
      · rw [whole]; exact own
      · rw [whole]; exact memo
      · rw [whole]; exact others j hj
      · rw [whole]
    · rw [if_neg (by rw [present]; decide), if_neg (by rw [stays]; decide), if_neg (by simp [same, incarnation])]
      rw [incarnation]
      rfl

/-! ## Frames dropped -/

/-- A reply that matches no tag, or does not fit, is counted as stale (R61). -/
theorem replyArrival_of_stale {r : ReceivedReply} {s : State}
    (h : r.matchesTag (s.tag r.tag) = false ∨ r.fits (s.tag r.tag) = false) : replyArrival r s = { s with
      counters := { s.counters with staleReplies := min (s.counters.staleReplies + 1) 65535 } } := by
  refine if_neg ?_
  obtain h | h := h <;> simp [h]

/-- Settles O34, by the check, the rate, the kind and the destination. -/
theorem droppedArrivals : Obligations.DroppedArrivals := by
  intro bytes rate changed s silent
  refine ⟨fun bad => congrArg Host.Outcome.next (receive_of_bad silent bad), ?_, ?_, ?_⟩
  · rintro rfl rfl good checks
    have taken := congrArg Host.Outcome.next (receive_of_dropped silent good checks) (β := Host.Outcome State Fault Refusal)
    refine ⟨fun i source present => taken.trans (congrArg Host.Outcome.next ?_),
      fun absent => taken.trans (congrArg Host.Outcome.next ?_)⟩
    · rw [source, restartSilence_of_present present]
      rfl
    · rw [restartSilence_of_absent absent]
      rfl
  · rintro rfl rfl checks other kind elsewhere
    have away : ¬ (destinationOf bytes = (restartSilence (sourceOf bytes) s).ownAddress ∧ destinationOf bytes ≤ 40) := by
      rw [restartSilence_ownAddress]; omega
    refine congrArg Host.Outcome.next ((receive_of_good silent checks other).trans ?_)
    obtain kind | kind | ⟨kind, directed⟩ := kind
    · simp only [routeFrame, kind, if_neg away]
    · simp only [routeFrame, kind, if_neg away]
    · simp only [routeFrame, kind, if_neg (not_or.mpr ⟨away, directed⟩)]
  · rintro rfl rfl checks kind other destination valid stale
    have here : destinationOf bytes = (restartSilence (sourceOf bytes) s).ownAddress ∧ destinationOf bytes ≤ 40 := by
      rw [restartSilence_ownAddress]; omega
    refine congrArg Host.Outcome.next ((receive_of_good silent checks other).trans ?_)
    simp only [routeFrame, kind, if_pos here]
    rw [restartSilence_eq]
    exact replyArrival_of_stale stale

end Sys2Proof.Machine

/-! PROOFS. The arrival of a request: the memo of its source, the checks in their order, the immediate answers, and the work
item that joins the queue (R107 to R113, R125). -/

namespace Sys2Proof.Machine

set_option Elab.async false

/-! ## The memo of the source (R109) -/

/-- A repeat leaves the memos (R109). -/
theorem emptyMemoOnArrival_of_repeated {r : Request} (h : r.repeated = true) (s : State) : emptyMemoOnArrival r s = s := by
  unfold emptyMemoOnArrival
  split
  · split
    · rw [if_neg (by simp [h])]
    · rfl
  · rfl

/-- Only the memos change. -/
theorem emptyMemoOnArrival_eq (r : Request) (s : State) : emptyMemoOnArrival r s = { s with
    responder := { s.responder with memos := (emptyMemoOnArrival r s).responder.memos } } := by
  unfold emptyMemoOnArrival
  split
  · split
    · split <;> rfl
    · rfl
  · rfl

/-- The memos after the arrival of a request from a station. -/
theorem emptyMemoOnArrival_memo {r : Request} {source : Fin 40} (h : r.source = source.val + 1) (s : State) :
    (emptyMemoOnArrival r s).memo source = (if r.repeated = false ∧
      ∃ m, s.memo source = some m ∧ (m.tag = r.tag ∨ r.operation = .claim) then none else s.memo source) ∧
    ∀ a, a ≠ source → (emptyMemoOnArrival r s).memo a = s.memo a := by
  have index : stationIndex r.source = some source := by rw [h, stationIndex_succ]
  simp only [emptyMemoOnArrival, index]
  cases hm : s.memo source with
  | none => simp [hm]
  | some m =>
    by_cases clears : r.repeated = false ∧ (m.tag = r.tag ∨ r.operation = .claim)
    · refine ⟨?_, fun a ha => ?_⟩
      · simp [clears]
      · simp [clears, State.setMemo_memo_of_ne _ _ (Ne.symm ha)]
    · have kept : (!r.repeated && (decide (m.tag = r.tag) || decide (r.operation = .claim))) = false := by
        simpa [← Bool.not_eq_true] using clears
      simp only [kept]
      refine ⟨?_, fun _ _ => rfl⟩
      have unmet : ¬ (r.repeated = false ∧ ∃ m', some m = some m' ∧ (m'.tag = r.tag ∨ r.operation = .claim)) := by
        rintro ⟨fresh, m', e, clearing⟩
        obtain rfl := Option.some.inj e
        exact clears ⟨fresh, clearing⟩
      rw [if_neg unmet]
      exact hm

/-! ## The checks against a window (R106, R108) -/

/-- An operation that a window's access does not grant (R106). -/
theorem Window.admits_eq_false_iff (w : Window) (op : Operation) : w.admits op = false ↔
    (op = .read ∧ w.access = .writeOnly) ∨ (op = .write ∧ w.access = .readOnly) ∨
      (op = .claim ∧ (w.access ≠ .readWrite ∨ w.paired = true)) := by
  unfold Window.admits
  cases op <;> cases w.access <;> simp

/-- A source that is not permitted, or an operation that is not granted (R108). -/
def Request.barred (r : Request) (w : Window) : Prop :=
  w.permits r.source = false ∨ (r.operation = .read ∧ w.access = .writeOnly) ∨
    (r.operation = .write ∧ w.access = .readOnly) ∨
    (r.operation = .claim ∧ (w.access ≠ .readWrite ∨ w.paired = true))

/-- A count out of range, or a span beyond the window (R108). -/
def Request.outOfRange (r : Request) (w : Window) : Prop :=
  r.count.toNat = 0 ∨ 16 < r.count.toNat ∨ (r.operation = .claim ∧ r.count.toNat ≠ 1) ∨
    w.size < r.offset.toNat + r.count.toNat

/-- Checks 3 to 5 of R108, in order. -/
theorem Request.windowCheck_cases (r : Request) (w : Window) :
    (r.barred w → r.windowCheck w = some .refused) ∧
    (¬ r.barred w → r.outOfRange w → r.windowCheck w = some .range) ∧
    (¬ r.barred w → ¬ r.outOfRange w → w.state = .held → r.windowCheck w = some (.notReady .held)) ∧
    (¬ r.barred w → ¬ r.outOfRange w → w.state ≠ .held → r.windowCheck w = none) := by
  have zero : r.count = 0 ↔ r.count.toNat = 0 := by rw [← BitVec.toNat_inj]; rfl
  have one : r.count = 1 ↔ r.count.toNat = 1 := by rw [← BitVec.toNat_inj]; rfl
  have barred : (!w.permits r.source || !w.admits r.operation) = true ↔ r.barred w := by
    rw [Request.barred, ← Window.admits_eq_false_iff]
    simp only [Bool.or_eq_true, Bool.not_eq_true']
  have range : (decide (r.count = 0) || decide (16 < r.count.toNat) || (decide (r.operation = .claim) && r.count != 1) ||
      decide (w.size < r.offset.toNat + r.count.toNat)) = true ↔ r.outOfRange w := by
    rw [Request.outOfRange]
    simp only [Bool.or_eq_true, Bool.and_eq_true, decide_eq_true_eq, bne_iff_ne, ne_eq, zero, one, or_assoc]
  unfold Request.windowCheck
  refine ⟨fun h => if_pos (barred.mpr h), fun h k => ?_, fun h k e => ?_, fun h k e => ?_⟩
  · rw [if_neg (mt barred.mp h), if_pos (range.mpr k)]
  · rw [if_neg (mt barred.mp h), if_neg (mt range.mp k), if_pos e]
  · rw [if_neg (mt barred.mp h), if_neg (mt range.mp k), if_neg e]

/-! ## Answers and work items -/

/-- An immediate reply takes a free slot, or is dropped and counted (R110). -/
theorem immediateReply_cases (q : Reply) (s : State) :
    (s.immediateTaken < 4 → immediateReply q s = { s with
      trunk := { s.trunk with replies := s.trunk.replies ++ [⟨q, false, 0⟩] } }) ∧
    (4 ≤ s.immediateTaken → immediateReply q s = { s with
      counters := { s.counters with droppedRequests := min (s.counters.droppedRequests + 1) 65535 } }) :=
  ⟨fun h => if_pos h, fun h => if_neg (Nat.not_lt.mpr h)⟩

theorem WorkItem.begins_firstStage (item : WorkItem) : item.Begins item.firstStage := by
  unfold WorkItem.Begins WorkItem.firstStage
  refine ⟨fun h => ?_, fun h => ?_, fun h => ?_⟩ <;> rw [h] <;> rfl

/-- The head item begins to execute when none is executing (R112). -/
theorem executeHead_execution (s : State) :
    (s.responder.execution = none → ∀ head later, (executeHead s).responder.queue = head :: later →
      ∃ stage, (executeHead s).responder.execution = some ⟨stage, false⟩ ∧ head.Begins stage) ∧
    (s.responder.execution ≠ none → (executeHead s).responder.execution = s.responder.execution) := by
  refine ⟨fun idle head later hq => ?_, fun busy => ?_⟩
  · have queue : s.responder.queue = head :: later := by
      rw [← hq]
      unfold executeHead
      split <;> rfl
    exact ⟨head.firstStage, by simp [executeHead, idle, queue], head.begins_firstStage⟩
  · cases h : s.responder.execution with
    | none => exact absurd h busy
    | some e => simp [executeHead, h]

/-- The head item's beginning is in the execution alone. -/
theorem executeHead_eq (s : State) : executeHead s = { s with
    responder := { s.responder with execution := (executeHead s).responder.execution } } := by
  unfold executeHead
  split <;> rfl

/-- A request addressed to the station, from another one, is judged on the memos as it leaves them (R107, R109). -/
theorem receive_request {bytes : List Byte} {s : State} (silent : s.trunk.line = none) (checks : receiveChecks bytes = true)
    (kind : kindOf bytes = some .request) (other : sourceOf bytes ≠ s.ownAddress)
    (here : destinationOf bytes = s.ownAddress) (valid : s.ownAddress ≤ 40) :
    receive ⟨bytes, s.station.config.rate, false⟩ s =
      Machine.requestArrival (requestOf bytes) (restartSilence (sourceOf bytes) s) := by
  have own : destinationOf bytes = (restartSilence (sourceOf bytes) s).ownAddress ∧ destinationOf bytes ≤ 40 := by
    rw [restartSilence_ownAddress]; omega
  rw [receive_of_good silent checks other, routeFrame, kind]
  exact if_pos own

/-- What a state that differs in the roster and the memos alone has in common with `s`. -/
structure SameButMemos (s u : State) : Prop where
  eq : ∃ roster memos, u = { s with
    station := { s.station with roster := roster }, responder := { s.responder with memos := memos } }

theorem sameButMemos_arrival (r : Request) (a : Nat) (s : State) :
    SameButMemos s (emptyMemoOnArrival r (restartSilence a s)) :=
  ⟨_, _, (emptyMemoOnArrival_eq r _).trans (by rw [restartSilence_eq])⟩

/-- A memo that answers a repeated CLAIM (R109). -/
theorem memoAnswers_iff (r : Request) (m : Option Memo) :
    r.memoAnswers m = true ↔ ∃ x, m = some x ∧ x.tag = r.tag ∧ x.generation = r.generation := by
  cases m <;> simp [Request.memoAnswers]

theorem inQueue_iff (r : Request) (queue : List WorkItem) : r.inQueue queue = true ↔ ∃ item ∈ queue,
    item.operation = .claim ∧ item.memoDue = true ∧ item.source = r.source ∧ item.tag = r.tag ∧
      item.generation = r.generation := by
  simp [Request.inQueue, and_assoc]

/-- Settles O35: the memo of the source first, then the checks in their order. -/
theorem Received.requestArrival : Obligations.RequestArrival := by
  intro bytes source s silent checks kind hsource other here valid r received memos answer answered
  let v := restartSilence (sourceOf bytes) s
  let u := emptyMemoOnArrival r v
  have named : r.source = source.val + 1 := hsource
  have taken : exec received s = .next (Machine.requestArrival r v) :=
    congrArg Host.Outcome.next (receive_request silent checks kind other here valid)
  have onTrunk : v.onTrunk = s.onTrunk := by show (restartSilence _ s).onTrunk = _; rw [restartSilence_eq]; rfl
  have judged (on : s.onTrunk = true) : exec received s = .next (judgeRequest r u) :=
    taken.trans (congrArg Host.Outcome.next (if_pos (onTrunk.trans on)))
  obtain ⟨roster, memoTable, same⟩ := (sameButMemos_arrival r (sourceOf bytes) s).eq
  have hu : u = { s with
      station := { s.station with roster := roster }, responder := { s.responder with memos := memoTable } } := same
  have silenced (a : Fin 40) : v.memo a = s.memo a := by
    show (restartSilence _ s).memo a = _
    rw [restartSilence_eq]; rfl
  have memoed : memos u := by
    have emptied := emptyMemoOnArrival_memo named v
    simp only [silenced] at emptied
    exact emptied
  have replies (on : s.onTrunk = true) (status : Status) (won : Bool) (payload : List Word)
      (h : judgeRequest r u = immediateReply (r.reply status won payload) u) : answer status won payload := by
    obtain ⟨free, full⟩ := immediateReply_cases (r.reply status won payload) u
    have taken' : u.immediateTaken = s.immediateTaken := by rw [hu]; rfl
    refine ⟨_, judged on, ?_⟩
    rw [h]
    by_cases room : u.immediateTaken < 4
    · rw [free room]
      refine ⟨memoed, ?_, ?_, fun _ => ⟨?_, ?_⟩, fun h => absurd h (by omega)⟩ <;> rw [hu]
    · rw [full (by omega)]
      refine ⟨memoed, ?_, ?_, fun h => absurd h (by omega), fun _ => ⟨?_, ?_⟩⟩ <;> rw [hu]
  have state : u.station.state = s.station.state := by rw [hu]
  refine ⟨fun off => ?_, fun leaving => ?_, fun joined => ?_⟩
  · rw [taken]
    exact congrArg Host.Outcome.next (if_neg (by rw [onTrunk, off]; decide))
  · exact replies (by simp [State.onTrunk, leaving]) _ _ _ (if_pos (state.trans leaving))
  · have on : s.onTrunk = true := by simp [State.onTrunk, joined]
    have stays : ¬ u.station.state = .leaving := by rw [state, joined]; decide
    refine ⟨fun beyond => ?_, fun i hi => ?_⟩
    · have index : r.windowIndex = none := dif_neg (by omega)
      refine replies on _ _ _ ?_
      rw [judgeRequest, if_neg stays, index]
    · intro w barred outOfRange
      have index : r.windowIndex = some i := by
        rw [Request.windowIndex, dif_pos (by omega)]
        exact congrArg some (Fin.ext hi.symm)
      have window : u.window i = w := by rw [hu]; rfl
      have judge : judgeRequest r u =
          if !w.advertised then immediateReply (r.reply .noWindow false []) u
          else
            match r.windowCheck w with
            | some status => immediateReply (r.reply status false []) u
            | none =>
              if r.operation = .claim && r.repeated && r.memoAnswers (u.memo source) then
                match u.memo source with
                | some m => immediateReply (r.reply .accepted m.won [m.previous]) u
                | none => u
              else if r.operation = .claim && r.repeated && r.inQueue u.responder.queue then u
              else if 8 ≤ u.reservedTaken then immediateReply (r.reply (.notReady .busy) false []) u
              else queueItem (r.workItem i w) u := by
        have memoOf : u.memoOf r.source = u.memo source := by
          rw [State.memoOf, named, stationIndex_succ]
        rw [judgeRequest, if_neg stays, index]
        simp only [window, memoOf] <;> rfl
      obtain ⟨refused, ranged, held, passed⟩ := r.windowCheck_cases w
      refine ⟨fun shut => replies on _ _ _ ?_, fun opened => ?_⟩
      · rw [judge, if_pos (by obtain h | h := shut <;> simp [Window.advertised, h])]
      · have advertised : ¬ (!w.advertised) = true := by obtain h | h := opened <;> simp [Window.advertised, h]
        rw [if_neg advertised] at judge
        refine ⟨fun b => replies on _ _ _ (by rw [judge, refused b]),
          fun b o => replies on _ _ _ (by rw [judge, ranged b o]),
          fun b o h => replies on _ _ _ (by rw [judge, held b o h]), fun b o h => ?_⟩
        rw [passed b o (by rw [h]; decide)] at judge
        intro inMemo queued
        have repeats (h : r.repeated = true) : u = v := emptyMemoOnArrival_of_repeated h v
        have memo (h : r.repeated = true) : u.memo source = s.memo source := by
          rw [repeats h]; exact silenced source
        have answers : (decide (r.operation = .claim) && r.repeated && r.memoAnswers (u.memo source)) = true ↔
            ∃ m, inMemo m := by
          simp only [Bool.and_eq_true, decide_eq_true_eq, memoAnswers_iff]
          constructor
          · rintro ⟨⟨claim, again⟩, m, hm, tag, generation⟩
            exact ⟨m, claim, again, (memo again).symm.trans hm, tag, generation⟩
          · rintro ⟨m, claim, again, hm, tag, generation⟩
            exact ⟨⟨claim, again⟩, m, (memo again).trans hm, tag, generation⟩
        have waits : (decide (r.operation = .claim) && r.repeated && r.inQueue u.responder.queue) = true ↔ queued := by
          have queue : u.responder.queue = s.responder.queue := by rw [hu]
          simp only [Bool.and_eq_true, decide_eq_true_eq, inQueue_iff, queue, and_assoc]
          rfl
        have slots : u.reservedTaken = s.reservedTaken := by rw [hu]; rfl
        refine ⟨fun m hm => ?_, fun none waiting => ?_, fun none idle full => ?_, fun none idle room => ?_⟩
        · refine replies on _ _ _ ?_
          rw [judge, if_pos (answers.mpr ⟨m, hm⟩)]
          obtain ⟨-, again, hm, -, -⟩ := hm
          rw [memo again, hm]
        · rw [judged on, judge, if_neg (mt answers.mp (not_exists.mpr none)), if_pos (waits.mpr waiting)]
          obtain ⟨-, again, -⟩ := waiting
          rw [repeats again]
        · refine replies on _ _ _ ?_
          rw [judge, if_neg (mt answers.mp (not_exists.mpr none)), if_neg (mt waits.mp idle), if_pos (slots ▸ full)]
        · have queues : judgeRequest r u = queueItem (r.workItem i w) u := by
            rw [judge, if_neg (mt answers.mp (not_exists.mpr none)), if_neg (mt waits.mp idle),
              if_neg (by rw [slots]; omega)]
          let x : State := { u with responder := { u.responder with queue := u.responder.queue ++ [r.workItem i w] } }
          have execution : x.responder.execution = s.responder.execution := by
            show u.responder.execution = _
            rw [hu]
          have queue : (executeHead x).responder.queue = s.responder.queue ++ [r.workItem i w] := by
            rw [executeHead_eq]
            show u.responder.queue ++ _ = _
            rw [hu]
          obtain ⟨begins, goesOn⟩ := executeHead_execution x
          rw [execution] at begins goesOn
          refine ⟨executeHead x, (judged on).trans (congrArg Host.Outcome.next queues), ?_, ?_, ?_, ?_, begins, goesOn,
            r.workItem i w, queue, rfl, rfl, rfl, rfl, rfl, rfl, rfl, rfl, rfl, ?_, rfl⟩
          · rw [executeHead_eq]; exact memoed
          · rw [executeHead_eq]; show u.trunk = _; rw [hu]
          · rw [executeHead_eq]; show u.counters = _; rw [hu]
          · rw [executeHead_eq]; show u.responder.windows = _; rw [hu]
          · show w.capturedHalf r.operation = _
            unfold Window.capturedHalf
            cases w.paired <;> rfl

end Sys2Proof.Machine

/-! PROOFS. LEAVE in JOINED: what it does at each channel, one after the other (R44, R71, R130, R157). -/

namespace Sys2Proof.Machine

set_option Elab.async false

/-- A channel at work, which LEAVE halts (R44). -/
def State.working (s : State) (c : Fin 4) : Prop := (s.channel c).state = .running ∨ (s.channel c).state = .waiting

/-- A notice of one of some channels that are at work is DETACHED (R130). -/
def State.DetachedFrom (s : State) (l : List (Fin 4)) (n n' : QueuedNotice) : Prop :=
  (∀ c ∈ l, n.origin = .channel c → s.working c → n' = { n with origin := .detached }) ∧
    ((∀ c ∈ l, n.origin = .channel c → ¬ s.working c) → n' = n)

/-- The context of a channel at work that LEAVE has reached. -/
def State.LeftChannel (s : State) (c : Fin 4) (ch : Channel) : Prop :=
  ((s.channel c).pausedAtTolerated = false →
    ∃ n ≤ (s.channel c).nextSegment, (∀ k, s.endsWith c k → n ≤ (s.tag k).segment) ∧
      (n = (s.channel c).nextSegment ∨ ∃ k, s.endsWith c k ∧ (s.tag k).segment = n) ∧
      ch = { (s.channel c).left with
        state := .failing, haltError := some .left, haltDetail := HaltDetail.none, resumeSegment := some n }) ∧
  ((s.channel c).pausedAtTolerated = true → ch = { (s.channel c).left with
    state := .failing, haltError := some .left, haltDetail := HaltDetail.none, resumeSegment := some 0
    entryIndex := (s.channel c).entryIndex + 1, entryUnbegun := true })

/-- LEAVE has reached some channels, one after the other, and nothing else. -/
structure LeftBy (l : List (Fin 4)) (s t : State) : Prop where
  rest : { t with engine := s.engine, notices := s.notices } = s
  last : t.engine.lastServed = s.engine.lastServed
  others : ∀ c, c ∉ l ∨ ¬ s.working c → t.channel c = s.channel c
  channel : ∀ c ∈ l, s.working c → s.LeftChannel c (t.channel c)
  ended : ∀ c ∈ l, ∀ k, s.working c → s.endsWith c k → t.tag k = s.releasedTag k
  kept : ∀ k, (∀ c ∈ l, s.working c → ¬ s.endsWith c k) → t.tag k = s.tag k
  notices : t.notices = { s.notices with queue := t.notices.queue }
  queue : List.Forall₂ (s.DetachedFrom l) s.notices.queue t.notices.queue

theorem LeftBy.nil (s : State) : LeftBy [] s s where
  rest := rfl
  last := rfl
  others _ _ := rfl
  channel _ h := nomatch h
  ended _ h := nomatch h
  kept _ _ := rfl
  notices := rfl
  queue := by
    have same (n : QueuedNotice) : s.DetachedFrom [] n n := ⟨nofun, fun _ => rfl⟩
    exact List.forall₂_same.mpr fun n _ => same n

/-- A channel that fails with LEFT from a state that differs in its own context alone. -/
theorem leftBy_of_channelFails {c : Fin 4} {s u t : State} {segment : Nat} (hu : ∃ ch, u = s.setChannel c ch)
    (works : s.working c)
    (h : State.ChannelFails c .left HaltDetail.none segment u t)
    (own : s.LeftChannel c (t.channel c)) : LeftBy [c] s t := by
  obtain ⟨ch, rfl⟩ := hu
  obtain ⟨-, others, ended, kept, notices, last, rest⟩ := h
  refine ⟨?_, last, fun d hd => ?_, fun d hd _ => ?_, fun d hd k _ he => ?_, fun k hk => ?_, ?_, ?_⟩
  · have := congrArg (fun v : State => { v with engine := s.engine }) rest
    exact this
  · have ne : d ≠ c := by
      obtain hd | hd := hd
      · simpa using hd
      · rintro rfl; exact hd works
    rw [others d ne, State.setChannel_channel_of_ne _ _ (Ne.symm ne)]
  · obtain rfl := List.mem_singleton.mp hd
    exact own
  · obtain rfl := List.mem_singleton.mp hd
    exact ended k he
  · exact kept k (hk c (List.mem_singleton_self c) works)
  · rw [notices]; rfl
  · rw [notices]
    show List.Forall₂ _ s.notices.queue (s.notices.queue.map _)
    rw [List.forall₂_map_right_iff]
    refine List.forall₂_same.mpr fun n _ => ⟨fun d hd ho _ => ?_, fun hn => ?_⟩
    · obtain rfl := List.mem_singleton.mp hd
      exact if_pos ho
    · exact if_neg fun ho => hn c (List.mem_singleton_self c) ho works

theorem working_of_paused {s : State} {c : Fin 4} (h : (s.channel c).pausedAtTolerated = true) : s.working c := by
  left
  unfold Channel.pausedAtTolerated at h
  split at h
  · simpa using h
  · cases h

/-- LEAVE at one channel (R44). -/
theorem leaveChannel_leftBy (c : Fin 4) (s : State) : LeftBy [c] s (leaveChannel c s) := by
  by_cases works : s.working c
  · cases paused : (s.channel c).pausedAtTolerated with
    | true =>
      let ch : Channel := { s.channel c with entryIndex := (s.channel c).entryIndex + 1, entryUnbegun := true }
      let u := s.setChannel c ch
      have uc : u.channel c = ch := State.setChannel_channel_self s c ch
      have e : leaveChannel c s = failChannel c .left HaltDetail.none 0 u := by
        unfold leaveChannel
        exact if_pos paused
      have fails := failChannel_channelFails c .left HaltDetail.none 0 u (by rw [uc]; exact works)
      rw [e]
      refine leftBy_of_channelFails ⟨ch, rfl⟩ works fails ⟨fun unpaused => ?_, fun _ => ?_⟩
      · rw [paused] at unpaused; cases unpaused
      · obtain ⟨n, hn, -, -, own⟩ := fails.1
        obtain rfl : n = 0 := Nat.le_zero.mp hn
        rw [own, uc]
        rfl
    | false =>
      have e : leaveChannel c s = failChannel c .left HaltDetail.none (s.channel c).nextSegment s := by
        unfold leaveChannel
        rw [if_neg (by rw [paused]; decide), if_pos (by obtain h | h := works <;> simp [h])]
      have fails := failChannel_channelFails c .left HaltDetail.none (s.channel c).nextSegment s works
      rw [e]
      have same : s = s.setChannel c (s.channel c) := by simp [State.setChannel, State.channel]
      refine leftBy_of_channelFails ⟨s.channel c, same⟩ works fails ⟨fun _ => fails.1, fun h => ?_⟩
      rw [paused] at h; cases h
  · have unpaused : ¬ (s.channel c).pausedAtTolerated = true := mt working_of_paused works
    have e : leaveChannel c s = s := by
      unfold leaveChannel
      rw [if_neg unpaused, if_neg]
      simpa [State.working] using works
    rw [e]
    refine ⟨rfl, rfl, fun _ _ => rfl, fun d hd h => ?_, fun d hd _ h => ?_, fun _ _ => rfl, rfl, ?_⟩
    · obtain rfl := List.mem_singleton.mp hd; exact absurd h works
    · obtain rfl := List.mem_singleton.mp hd; exact absurd h works
    · refine List.forall₂_same.mpr fun n _ => ⟨fun d hd _ h => ?_, fun _ => rfl⟩
      obtain rfl := List.mem_singleton.mp hd; exact absurd h works

/-- LEAVE at a channel leaves what is asked of the others as it was: whether they are at work, and their BACKOFF tags. -/
theorem LeftBy.apart {c d : Fin 4} {s u : State} (h : LeftBy [c] s u) (ne : d ≠ c) :
    u.channel d = s.channel d ∧ (∀ k, u.endsWith d k ↔ s.endsWith d k) ∧
      ∀ k, s.endsWith d k → u.tag k = s.tag k := by
  have channel : u.channel d = s.channel d := h.others d (.inl (by simpa using ne))
  have kept (k : Fin 16) (he : s.endsWith d k) : u.tag k = s.tag k := by
    refine h.kept k fun e hm _ hc => ne ?_
    obtain rfl := List.mem_singleton.mp hm
    obtain ⟨-, -, owner⟩ := he
    obtain ⟨-, -, owner'⟩ := hc
    exact Option.some.inj (owner.symm.trans owner')
  refine ⟨channel, fun k => ⟨fun he => ?_, fun he => ?_⟩, kept⟩
  · by_cases hc : s.working c ∧ s.endsWith c k
    · have e := h.ended c (List.mem_singleton_self c) k hc.1 hc.2
      obtain ⟨-, -, owner⟩ := he
      rw [e] at owner
      cases owner
    · have e := h.kept k fun d hd w he => hc (by obtain rfl := List.mem_singleton.mp hd; exact ⟨w, he⟩)
      unfold State.endsWith at he ⊢
      rwa [e] at he
  · have e := kept k he
    unfold State.endsWith at he ⊢
    rwa [e]

/-- Two relations along three lists. -/
theorem forall₂_comp {α β γ : Type} {R : α → β → Prop} {S : β → γ → Prop} {T : α → γ → Prop}
    (h : ∀ a b c, R a b → S b c → T a c) {l₁ : List α} {l₂ : List β} {l₃ : List γ} (h₁ : List.Forall₂ R l₁ l₂)
    (h₂ : List.Forall₂ S l₂ l₃) : List.Forall₂ T l₁ l₃ := by
  induction h₁ generalizing l₃ with
  | nil => cases h₂; exact .nil
  | cons r _ ih =>
    obtain ⟨s, rest⟩ | ⟨s, rest⟩ := h₂
    exact .cons (h _ _ _ r s) (ih rest)

/-- The place of an element on the other side of a relation along two lists. -/
theorem forall₂_getElem? {α β : Type} {R : α → β → Prop} {l₁ : List α} {l₂ : List β} (h : List.Forall₂ R l₁ l₂) {i : Nat}
    {a : α} (hi : l₁[i]? = some a) : ∃ b, l₂[i]? = some b ∧ R a b := by
  induction h generalizing i with
  | nil => simp at hi
  | cons r _ ih =>
    cases i with
    | zero =>
      obtain rfl := Option.some.inj hi
      exact ⟨_, rfl, r⟩
    | succ i => exact ih hi

theorem DetachedFrom.cons {c : Fin 4} {l : List (Fin 4)} {s u : State} {n n₁ n₂ : QueuedNotice} (hc : c ∉ l)
    (works : ∀ d ∈ l, u.working d ↔ s.working d) (h : s.DetachedFrom [c] n n₁) (k : u.DetachedFrom l n₁ n₂) :
    s.DetachedFrom (c :: l) n n₂ := by
  have skip (h' : n.origin ≠ .channel c ∨ ¬ s.working c) : n₁ = n := h.2 fun d hd ho => by
    obtain rfl := List.mem_singleton.mp hd
    exact h'.resolve_left (not_not.mpr ho)
  refine ⟨fun d hd ho hw => ?_, fun away => ?_⟩
  · obtain rfl | hm := List.mem_cons.mp hd
    · have first : n₁ = { n with origin := .detached } := h.1 d (List.mem_singleton_self d) ho hw
      rw [k.2, first]
      intro e _ he
      rw [first] at he
      cases he
    · have first := skip (.inl fun ho' => hc (by
        obtain rfl := Origin.channel.inj (ho.symm.trans ho')
        exact hm))
      subst first
      exact k.1 d hm ho ((works d hm).mpr hw)
  · have first := skip (by
      by_cases ho : n.origin = .channel c
      · exact .inr (away c (List.mem_cons_self ..) ho)
      · exact .inl ho)
    subst first
    exact k.2 fun d hd ho hw => away d (List.mem_cons_of_mem _ hd) ho ((works d hd).mp hw)

/-- LEAVE at a channel and then at others. -/
theorem LeftBy.cons {c : Fin 4} {l : List (Fin 4)} {s u t : State} (h : LeftBy [c] s u) (k : LeftBy l u t) (hc : c ∉ l) :
    LeftBy (c :: l) s t := by
  have ne {d : Fin 4} (hd : d ∈ l) : d ≠ c := by rintro rfl; exact hc hd
  have works {d : Fin 4} (hd : d ∈ l) : u.working d ↔ s.working d := by
    unfold State.working
    rw [(h.apart (ne hd)).1]
  have config : u.station = s.station := by
    have e := congrArg State.station h.rest
    exact e
  have released (i : Fin 16) (e : u.tag i = s.tag i) : u.releasedTag i = s.releasedTag i := by
    unfold State.releasedTag
    rw [e, config]
  refine ⟨?_, k.last.trans h.last, fun d hd => ?_, fun d hd hw => ?_, fun d hd i hw he => ?_, fun i hi => ?_, ?_, ?_⟩
  · have := congrArg (fun v : State => { v with engine := s.engine, notices := s.notices }) k.rest
    exact this.trans h.rest
  · by_cases hm : d ∈ l
    · have idle : ¬ s.working d := hd.resolve_left fun h => h (List.mem_cons_of_mem _ hm)
      rw [k.others d (.inr fun w => idle ((works hm).mp w)), (h.apart (ne hm)).1]
    · rw [k.others d (.inl hm)]
      refine h.others d (hd.imp_left fun hn he => hn ?_)
      obtain rfl := List.mem_singleton.mp he
      exact List.mem_cons_self ..
  · obtain rfl | hm := List.mem_cons.mp hd
    · rw [k.others d (.inl hc)]
      exact h.channel d (List.mem_singleton_self d) hw
    · have left := k.channel d hm ((works hm).mpr hw)
      obtain ⟨channel, ends, kept⟩ := h.apart (ne hm)
      unfold State.LeftChannel at left ⊢
      rw [channel] at left
      refine ⟨fun hp => ?_, left.2⟩
      obtain ⟨n, hn, low, which, own⟩ := left.1 hp
      refine ⟨n, hn, fun i hi => ?_, which.imp_right fun ⟨i, hi, e⟩ => ⟨i, (ends i).mp hi, ?_⟩, own⟩
      · rw [← kept i hi]; exact low i ((ends i).mpr hi)
      · rw [← kept i ((ends i).mp hi)]; exact e
  · obtain rfl | hm := List.mem_cons.mp hd
    · have e := h.ended d (List.mem_singleton_self d) i hw he
      rw [k.kept i, e]
      intro d' hd' _ he'
      obtain ⟨-, -, owner⟩ := he'
      rw [e] at owner
      cases owner
    · obtain ⟨-, ends, kept⟩ := h.apart (ne hm)
      rw [k.ended d hm i ((works hm).mpr hw) ((ends i).mpr he), released i (kept i he)]
  · have first : u.tag i = s.tag i := h.kept i fun d hd => hi d (by
      obtain rfl := List.mem_singleton.mp hd
      exact List.mem_cons_self ..)
    rw [k.kept i, first]
    intro d hm hw he
    exact hi d (List.mem_cons_of_mem _ hm) ((works hm).mp hw) (((h.apart (ne hm)).2.1 i).mp he)
  · have e := k.notices
    rw [h.notices] at e
    exact e
  · have comp (n n₁ n₂ : QueuedNotice) (hn : s.DetachedFrom [c] n n₁) (kn : u.DetachedFrom l n₁ n₂) :
        s.DetachedFrom (c :: l) n n₂ := DetachedFrom.cons hc (fun d hd => works hd) hn kn
    exact forall₂_comp comp h.queue k.queue

/-- LEAVE at some channels, one after the other. -/
theorem leaveChannel_foldl_leftBy (l : List (Fin 4)) (hl : l.Nodup) (s : State) :
    LeftBy l s (l.foldl (fun s c => leaveChannel c s) s) := by
  induction l generalizing s with
  | nil => exact .nil s
  | cons c l ih =>
    obtain ⟨hc, nodup⟩ := List.nodup_cons.mp hl
    exact (leaveChannel_leftBy c s).cons (ih nodup _) hc

theorem takeLeave_of_joined {s : State} (joined : s.station.state = .joined) :
    takeLeave s = (.accepted, beginLeave s) := by
  unfold takeLeave
  split
  case h_3 => rfl
  all_goals simp_all

/-- Settles O15: LEAVE reaches the four channels, one after the other. -/
theorem leaveInJoined : Obligations.LeaveInJoined := by
  intro s idle joined
  let v : State := { s with station := { s.station with state := .leaving } }
  have taken : takeLeave s = (.accepted, beginLeave s) := takeLeave_of_joined joined
  have left : LeftBy (List.finRange 4) v (beginLeave s) := leaveChannel_foldl_leftBy _ (List.nodup_finRange 4) v
  have port : (beginLeave s).port = s.port := (beginLeave_quiet s).port
  generalize beginLeave s = u at taken left port
  refine ⟨_, issue_taken idle taken, ?_⟩
  intro working
  have all (c : Fin 4) : c ∈ List.finRange 4 := List.mem_finRange c
  obtain ⟨rest, last, others, channel, ended, kept, notices, queue⟩ := left
  refine ⟨?_, ?_, ?_, last, fun c hc => others c (.inr hc), fun c hc => channel c (all c) hc,
    fun c k hc he => ended c (all c) k hc he, fun k hk => kept k fun c _ hc => hk c hc, notices, ?_, fun i n hn => ?_⟩
  · show (u.withResult .accepted).port = _
    rw [State.withResult, port]
    rfl
  · have e := congrArg State.station rest
    exact e
  · have e := congrArg (fun x : State => { x with port := s.port, station := s.station }) rest
    exact e
  · exact queue.length_eq.symm
  · obtain ⟨n', hn', detached⟩ := forall₂_getElem? queue hn
    refine ⟨fun c ho hc => ?_, fun away => ?_⟩
    · show u.notices.queue[i]? = _
      rw [hn', detached.1 c (all c) ho hc]
    · show u.notices.queue[i]? = _
      rw [hn', detached.2 fun c _ ho => away c ho]

end Sys2Proof.Machine

/-! PROOFS. Timers of channels and tags, end reports, and the rotations of the notice queue and of the event writer (R34,
R36, R62, R64, R69, R129, R183). -/

namespace Sys2Proof.Machine

set_option Elab.async false

/-! ## A channel's wait, and its end report -/

/-- An unmet entry under TOLERANT is counted, and its channel pauses (R32). -/
theorem endUnmet_of_tolerant {c : Fin 4} {s : State} (r : Result) (error : HaltError) (detail : HaltDetail)
    (h : (s.channel c).captured.disposition = some .tolerant) : endUnmet c r error detail s =
      s.setChannel c { (s.channel c).left with
        state := .running, tolerated := (s.channel c).tolerated + 1, lastTolerated := some r
        heldSlot := some (.chTolerated c (s.channel c).entryIndex ((s.channel c).tolerated + 1) (some r)) } := by
  simp [endUnmet, h, raiseHeld, Channel.toleratedEvent, Channel.tolerate, leaveRunning_eq]
  rfl

/-- An unmet entry not under TOLERANT halts its channel (R40). -/
theorem endUnmet_of_not_tolerant {c : Fin 4} {s : State} (r : Result) (error : HaltError) (detail : HaltDetail)
    (h : (s.channel c).captured.disposition ≠ some .tolerant) :
    endUnmet c r error detail s = failChannel c error detail 0 s := if_neg h

/-- Settles O39, by the disposition of the entry that waits. -/
theorem waitTimerExpiry : Obligations.WaitTimerExpiry := by
  unfold Obligations.WaitTimerExpiry
  intro c b s waiting timer waits
  have e : exec (.waitTimerExpiry c) s =
      .next (endUnmet c .waitTimeout .waitTimeout ⟨none, none, some (BitVec.ofNat 32 b.val)⟩ s) := by
    have expired : waitExpired c s =
        endUnmet c .waitTimeout .waitTimeout ⟨none, none, some (BitVec.ofNat 32 b.val)⟩ s := by
      simp [waitExpired, waiting, isRunning_of_ne_stopped timer, waits]
    exact congrArg Host.Outcome.next expired
  refine ⟨fun h => ⟨_, e, ?_⟩, fun h => ?_⟩
  · rw [endUnmet_of_not_tolerant _ _ _ h]
    exact failChannel_channelFails _ _ _ _ _ (.inr waiting)
  · rw [e, endUnmet_of_tolerant _ _ _ h]

/-- A channel that owns no tag in QUEUED, SENT or BACKOFF has none outstanding (R26). -/
theorem outstanding_eq_zero {s : State} {c : Fin 4} (h : ∀ k, (s.tag k).owned = true → (s.tag k).owner ≠ some c) :
    s.outstanding c = 0 := by
  unfold State.outstanding
  rw [List.countP_eq_zero]
  intro g hg
  obtain ⟨i, hi, rfl⟩ := List.mem_iff_getElem.mp hg
  have own := h ⟨i, by simpa using hi⟩
  simp only [State.tag, Vector.getElem_toList, Bool.and_eq_true, decide_eq_true_eq, not_and] at own ⊢
  exact own

/-- Settles O40, by the state of the channel at rest. -/
theorem channelEnterReporting : Obligations.ChannelEnterReporting := by
  unfold Obligations.ChannelEnterReporting
  intro c s tags prepares writes slot
  have rest : s.outstanding c = 0 ∧ (s.channel c).quiet = true ∧ (s.channel c).heldSlot = none :=
    ⟨outstanding_eq_zero tags, by simp [Channel.quiet, prepares, writes], slot⟩
  refine ⟨fun stopping => congrArg Host.Outcome.next ?_, fun r failing resume => congrArg Host.Outcome.next ?_⟩
  · simp only [reportEnd, if_pos rest, stopping, enterReporting]
  · simp only [reportEnd, if_pos rest, failing, enterReporting, Channel.haltedEvent, resume, Option.getD_some]

/-! ## The rotations of the notice queue and of the event writer -/

/-- Settles O46: the channel is the first in rotation that has a frame to place. -/
theorem noticePlaceGrant : Obligations.NoticePlaceGrant := by
  unfold Obligations.NoticePlaceGrant
  intro c s e free running place first
  have chosen : (rotation4 s.notices.lastServed).find? s.hasNotice = some c :=
    (find_rotation4 _ _ _).mpr ⟨by simp [State.hasNotice, running, place], first⟩
  have granted : grantNoticePlace s = { s.setChannel c { s.channel c with noticeWait := .echo } with
      notices := { s.notices with
        queue := s.notices.queue ++ [⟨e.destination, e.noticeCode, e.argument, .channel c, 0⟩], lastServed := c } } := by
    simp only [grantNoticePlace, if_pos free, chosen]
    rfl
  exact congrArg Host.Outcome.next granted

/-- The first source after the last served one that has a record is the next to be written (R183). -/
theorem nextSource_of_first {s : State} {i : Fin 22} {e : Event} (h : s.sourceRecord i = some e)
    (first : ∀ j : Fin 22, (j - (s.writer.lastServed + 1)).val < (i - (s.writer.lastServed + 1)).val →
      s.sourceRecord j = none) : s.nextSource = some i := by
  rw [State.nextSource, List.find?_eq_some_iff_getElem]
  refine ⟨by rw [h]; rfl, (i - (s.writer.lastServed + 1)).val, by simp [rotation22], ?_, fun j hj => ?_⟩
  · simp [rotation22]
  · simp only [rotation22, List.getElem_map, List.getElem_finRange, Bool.not_eq_true', Option.isSome_eq_false_iff,
      Option.isNone_iff_eq_none]
    apply first
    simpa using hj

/-- Settles O48: the counted drops come before every source. -/
theorem eventWriteBegin : Obligations.EventWriteBegin := by
  unfold Obligations.EventWriteBegin
  intro s configured fault inFlight space
  have free : s.writerFree = true := by simp [State.writerFree, configured, fault, inFlight, space]
  refine ⟨fun drops => congrArg Host.Outcome.next ?_, fun i e none source first => congrArg Host.Outcome.next ?_⟩
  · simp [beginWrite, free, drops]
  · simp only [beginWrite, free, none, nextSource_of_first source first, source]
    rfl

/-! ## The end of an attempt -/

/-- The state in which an attempt has ended: the outcome kept, the timer stopped, the try unacted on (R56, R63). -/
def State.attemptEnded (s : State) (k : Fin 16) (r : Result) : State :=
  { s.setTag k { s.tag k with lastOutcome := some r, timer := .stopped } with trunk := { s.trunk with
    line := s.trunk.line.map fun x =>
      if x.frame = .request k ∧ x.fate = .live then { x with fate := .withdrawn } else x } }

@[simp] theorem State.attemptEnded_tag_self (s : State) (k : Fin 16) (r : Result) :
    (s.attemptEnded k r).tag k = { s.tag k with lastOutcome := some r, timer := .stopped } := State.setTag_tag_self ..

theorem State.attemptEnded_tag_of_ne (s : State) {j k : Fin 16} (r : Result) (h : k ≠ j) :
    (s.attemptEnded k r).tag j = s.tag j := State.setTag_tag_of_ne _ _ h

@[simp] theorem State.attemptEnded_channel (s : State) (k : Fin 16) (r : Result) (c : Fin 4) :
    (s.attemptEnded k r).channel c = s.channel c := rfl

/-- A success at the tag of a RUNNING channel, not in a sweep, other segments of whose entry are unresolved (R31, R67,
R76). -/
theorem OutcomeTaken.succeeded_of_running {k : Fin 16} {r : Result} {s t : State} (h : State.OutcomeTaken k r s t)
    {c : Fin 4} (owner : (s.tag k).owner = some c) (running : (s.channel c).state = .running)
    (sweep : (s.tag k).sweep = false) (success : r.succeeds) :
    ((s.tag k).operation = .read → t = ((s.attemptEnded k r).setTag k { s.tag k with
        lastOutcome := some r, timer := .stopped, completing := true }).setChannel c { s.channel c with
          writes := (s.channel c).writes ++ [{
            tag := some k, segment := (s.tag k).segment, record := none
            stage := .writing (writesOf ((s.tag k).destination.getD []) ((s.tag k).payload.take (s.tag k).count))
            begun := false }] }) ∧
      ((s.tag k).operation ≠ .read → (s.channel c).completed + 1 < (s.channel c).captured.segments →
        t = ((s.attemptEnded k r).setTag k ((s.attemptEnded k r).releasedTag k)).setChannel c
          { s.channel c with completed := (s.channel c).completed + 1 }) := by
  obtain ⟨-, owned⟩ := h
  obtain ⟨-, resolved, -⟩ := owned c owner
  obtain ⟨read, goesOn, -⟩ := resolved (.inl running) sweep
  exact ⟨read success, fun other more => (goesOn success other).2 (.inr (.inr more))⟩

/-! ## The expiries of a tag's timer -/

/-- The expiry of a running deadline ends its attempt with TIMEOUT (R62, R66). -/
theorem deadlineExpired_of_sent {k : Fin 16} {s : State} (sent : (s.tag k).state = .sent)
    (completing : (s.tag k).completing = false) (timer : (s.tag k).timer ≠ .stopped) :
    deadlineExpired k s = attemptOutcome k .timeout (s.setTag k { s.tag k with unanswered := true }) := by
  simp [deadlineExpired, sent, completing, isRunning_of_ne_stopped timer]

theorem not_succeeds_timeout : ¬ Result.succeeds .timeout := by simp [Result.succeeds]

theorem retried_timeout (claim : Bool) : Result.retried claim .timeout := .inr (.inl rfl)

/-- A running channel that halts fails at some segment and leaves the other channels as they were. -/
theorem ChannelFails.halted {c : Fin 4} {error : HaltError} {detail : HaltDetail} {segment : Nat} {s t : State}
    (h : State.ChannelFails c error detail segment s t) :
    (t.channel c).state = .failing ∧ (t.channel c).resumeSegment ≠ none ∧ (t.channel c).haltError = some error ∧
      (t.channel c).haltDetail = detail ∧ ∀ d, d ≠ c → t.channel d = s.channel d := by
  obtain ⟨⟨n, -, -, -, own⟩, others, -⟩ := h
  rw [own]
  exact ⟨rfl, by simp, rfl, rfl, others⟩

/-- Settles O43: what the outcome TIMEOUT does by the owner, and two of its cases spelled. -/
theorem deadlineExpiry : Obligations.DeadlineExpiry := by
  unfold Obligations.DeadlineExpiry
  intro k s sent completing timer
  have expired : exec (.deadlineExpiry k) s =
      .next (attemptOutcome k .timeout (s.setTag k { s.tag k with unanswered := true })) :=
    congrArg Host.Outcome.next (deadlineExpired_of_sent sent completing timer)
  have taken := attemptOutcome_outcomeTaken k .timeout (s.setTag k { s.tag k with unanswered := true })
  have frame := attemptOutcome_frame k .timeout (s.setTag k { s.tag k with unanswered := true })
  generalize attemptOutcome k .timeout (s.setTag k { s.tag k with unanswered := true }) = t at expired taken frame
  refine ⟨⟨t, expired, taken⟩, fun c owner running sweep => ?_⟩
  obtain ⟨-, owned⟩ := taken
  obtain ⟨-, -, unmet, -, -⟩ := owned c (by simpa using owner)
  obtain ⟨strict, persist⟩ := unmet (by simpa using running) (by simpa using sweep) not_succeeds_timeout
  refine ⟨fun disposition below => ⟨t, expired, ?_⟩, fun disposition => ⟨t, expired, ?_⟩⟩
  · obtain ⟨-, retry, -⟩ := persist (by simpa using disposition)
    have e := retry (retried_timeout _) (by simpa using below)
    refine ⟨?_, fun j hj => ?_, by rw [e]; rfl, frame.station, frame.responder, by rw [e]; rfl, frame.writer,
      frame.counters⟩
    · rw [e]; simp
    · rw [e]
      show (((s.setTag k _).setTag k _).setTag k _).tag j = s.tag j
      simp only [State.setTag_tag_of_ne _ _ (Ne.symm hj)]
  · have fails := strict (by simpa using disposition)
    obtain ⟨state, resume, error, detail, others⟩ := ChannelFails.halted fails
    obtain ⟨-, -, -, kept, -⟩ := fails
    have tag := kept k fun ⟨_, _, own⟩ => by simp [State.releasedTag] at own
    rw [State.setTag_tag_self] at tag
    refine ⟨state, resume, fun other => ?_, fun claim => ?_, ?_, ?_, ?_, others, frame.station, frame.responder,
      frame.writer, frame.counters⟩
    · rw [error, detail]
      simp [other, Result.halt]
    · rw [error, detail]
      simp [claim, Result.halt]
    all_goals
      rw [tag]
      simp [State.releasedTag, State.tag, State.setTag]

/-- The next attempt of a BACKOFF tag, in one update of the tag (R64, R65). -/
theorem retryExpired_of_backoff {k : Fin 16} {s : State} (backoff : (s.tag k).state = .backoff)
    (timer : (s.tag k).timer ≠ .stopped) : retryExpired k s = attemptBegins k (s.setTag k { s.tag k with
      state := .queued, attempts := (s.tag k).attempts + 1
      generation := xor (s.tag k).generation (s.tag k).lastAnswered
      repeated := !(s.tag k).lastAnswered && ((s.tag k).sameOnLine || (s.tag k).onLine)
      sameOnLine := if (s.tag k).lastAnswered then (s.tag k).otherOnLine else ((s.tag k).sameOnLine || (s.tag k).onLine)
      otherOnLine := if (s.tag k).lastAnswered then ((s.tag k).sameOnLine || (s.tag k).onLine) else (s.tag k).otherOnLine
      onLine := false, lastAnswered := false, timer := .stopped, tries := 0 }) := by
  simp only [retryExpired, backoff, isRunning_of_ne_stopped timer, reissue]
  cases (s.tag k).lastAnswered <;> simp

/-- Settles O44, by the state of the tag and, of a next attempt, of its target. -/
theorem retryAndCoolingExpiry : Obligations.RetryAndCoolingExpiry := by
  unfold Obligations.RetryAndCoolingExpiry
  intro k s timer same attempt
  have target : attempt.isPresent (attempt.tag k).target = s.isPresent (s.tag k).target := by
    simp only [attempt, State.setTag_tag_self]
    rfl
  refine ⟨fun backoff present => congrArg Host.Outcome.next ?_,
    fun backoff absent => ⟨attemptOutcome k .absent attempt, congrArg Host.Outcome.next ?_,
      attemptOutcome_outcomeTaken k .absent attempt⟩, fun cooling => congrArg Host.Outcome.next ?_⟩
  · exact (retryExpired_of_backoff backoff timer).trans (if_pos (target.trans present))
  · exact (retryExpired_of_backoff backoff timer).trans (if_neg (by rw [target, absent]; decide))
  · simp [coolingExpired, cooling, isRunning_of_ne_stopped timer]

/-! ## A reply that fits -/

/-- The words that a reply to a tag carries (R59). -/
theorem replyWords_eq (status : Status) (g : Tag) : replyWords status g = if status = .accepted then
    (if g.operation = .read then g.count else if g.operation = .claim then 1 else 0) else 0 := by
  unfold replyWords
  cases status <;> cases g.operation <;> rfl

/-- The outcome that a status gives, case by case (R60). -/
theorem outcome_of_status {r : ReceivedReply} {g : Tag} {status : Status} {outcome : Result}
    (named : r.status = some status)
    (accepted : status = .accepted → g.operation ≠ .claim → outcome = .accepted)
    (claimed : status = .accepted → g.operation = .claim →
      outcome = if r.won then .won (r.payload.headD 0) else .lost (r.payload.headD 0))
    (notReady : ∀ reason, status = .notReady reason → outcome = .notReady reason)
    (refused : status = .refused → outcome = .refused) (noWindow : status = .noWindow → outcome = .noWindow)
    (range : status = .range → outcome = .range) (fault : status = .fault → outcome = .remoteFault) :
    r.outcome g = outcome := by
  unfold ReceivedReply.outcome
  rw [named]
  cases status with
  | accepted =>
    cases operation : g.operation with
    | claim => exact (claimed rfl operation).symm
    | read => exact (accepted rfl (by simp [operation])).symm
    | write => exact (accepted rfl (by simp [operation])).symm
  | notReady reason => exact (notReady reason rfl).symm
  | refused => exact (refused rfl).symm
  | noWindow => exact (noWindow rfl).symm
  | range => exact (range rfl).symm
  | fault => exact (fault rfl).symm

theorem outcome_accepted_of_unclaimed {r : ReceivedReply} {g : Tag} (named : r.status = some .accepted)
    (other : g.operation ≠ .claim) : r.outcome g = .accepted := by
  unfold ReceivedReply.outcome
  rw [named]
  cases operation : g.operation <;> simp_all

/-- A READ's outcome is ACCEPTED when its reply's status is (R60). -/
theorem outcome_accepted_iff {r : ReceivedReply} {g : Tag} {status : Status} (named : r.status = some status)
    (read : g.operation = .read) : r.outcome g = .accepted ↔ status = .accepted := by
  unfold ReceivedReply.outcome
  rw [named]
  cases status <;> simp [read]

/-- A reply that matches a tag and fits its request ends the tag's attempt, answered (R58, R59, R60). -/
theorem replyArrival_of_fitting {r : ReceivedReply} {s : State} {status : Status}
    (matches_ : r.matchesTag (s.tag r.tag) = true) (fits : r.fits (s.tag r.tag) = true) (named : r.status = some status) :
    replyArrival r s = attemptOutcome r.tag (r.outcome (s.tag r.tag)) (s.setTag r.tag { s.tag r.tag with
      lastAnswered := true
      payload := if status = .accepted ∧ (s.tag r.tag).operation = .read then r.payload else (s.tag r.tag).payload }) := by
  simp only [replyArrival, matches_, fits, Bool.and_self, if_true]
  congr 4
  by_cases read : (s.tag r.tag).operation = .read
  · simp [read, outcome_accepted_iff named read]
  · simp [read]

/-- Settles O45: what the outcome of the reply's status does by the owner, and the case of ACCEPTED spelled for a WRITE and
a READ of a RUNNING channel. -/
theorem acceptedReply : Obligations.AcceptedReply := by
  unfold Obligations.AcceptedReply
  intro bytes k s silent checks kind other destination valid tag r received owned completing source generation window
    offset count
  obtain rfl : r.tag = k := tag
  obtain ⟨u, hu, tags, channels, station, counters, writer⟩ : ∃ u, restartSilence (sourceOf bytes) s = u ∧
      (∀ j, u.tag j = s.tag j) ∧ (∀ d, u.channel d = s.channel d) ∧ u.station.config = s.station.config ∧
      u.counters = s.counters ∧ u.writer = s.writer := by
    refine ⟨_, restartSilence_eq (sourceOf bytes) s, ?_⟩
    exact ⟨fun _ => rfl, fun _ => rfl, rfl, rfl, rfl⟩
  have routed : exec received s = .next (replyArrival r u) := by
    have here : destinationOf bytes = u.ownAddress ∧ destinationOf bytes ≤ 40 := by
      rw [← hu, restartSilence_ownAddress]; omega
    refine congrArg Host.Outcome.next ((receive_of_good silent checks other).trans ?_)
    simp only [hu, routeFrame, kind, if_pos here]
    rfl
  have answered (status : Status) (named : r.status = some status)
      (length : r.payloadLength = 4 * replyWords status (s.tag r.tag)) :
      exec received s = .next (attemptOutcome r.tag (r.outcome (s.tag r.tag)) (u.setTag r.tag { s.tag r.tag with
        lastAnswered := true
        payload := if status = .accepted ∧ (s.tag r.tag).operation = .read then r.payload
          else (s.tag r.tag).payload })) := by
    rw [routed, replyArrival_of_fitting (status := status) ?_ ?_ named, tags]
    · simp [ReceivedReply.matchesTag, tags, owned, completing, source, generation]
    · simp [ReceivedReply.fits, named, tags, window, offset, count, length]
  rw [hu]
  refine ⟨fun status outcome named length accepted claimed notReady refused noWindow range fault => ?_,
    fun c named owner running sweep => ⟨fun write length notSweep more => ?_, fun read length => ?_⟩⟩
  · rw [answered status named (by rw [length, replyWords_eq]),
      outcome_of_status named accepted claimed notReady refused noWindow range fault]
    exact ⟨_, rfl, attemptOutcome_outcomeTaken ..⟩
  · have answer := answered .accepted named (by rw [length, replyWords_eq]; simp [write])
    rw [outcome_accepted_of_unclaimed named (by simp [write])] at answer
    have taken := attemptOutcome_outcomeTaken r.tag .accepted (u.setTag r.tag { s.tag r.tag with
      lastAnswered := true
      payload := if Status.accepted = .accepted ∧ (s.tag r.tag).operation = .read then r.payload
        else (s.tag r.tag).payload })
    obtain ⟨-, resolved⟩ := OutcomeTaken.succeeded_of_running taken (c := c) (by simpa using owner)
      (by simpa [channels] using running)
      (by simpa using sweep) (.inl rfl)
    refine ⟨_, answer, ?_⟩
    rw [resolved (by simp [write]) (by simpa [channels] using more)]
    refine ⟨by simp [channels], ?_, ?_, ?_, fun j hj => ?_, fun d hd => ?_, counters, writer⟩
    · simp [State.releasedTag]
    · simp [State.releasedTag]
    · simp [State.releasedTag]
    · simp [State.setTag_tag_of_ne _ _ (Ne.symm hj), State.attemptEnded_tag_of_ne _ _ (Ne.symm hj), tags]
    · simp [State.setChannel_channel_of_ne _ _ (Ne.symm hd), channels]
  · have answer := answered .accepted named (by rw [length, replyWords_eq]; simp [read])
    rw [outcome_accepted_of_unclaimed named (by simp [read])] at answer
    have taken := attemptOutcome_outcomeTaken r.tag .accepted (u.setTag r.tag { s.tag r.tag with
      lastAnswered := true
      payload := if Status.accepted = .accepted ∧ (s.tag r.tag).operation = .read then r.payload
        else (s.tag r.tag).payload })
    obtain ⟨asked, -⟩ := OutcomeTaken.succeeded_of_running taken (c := c) (by simpa using owner)
      (by simpa [channels] using running)
      (by simpa using sweep) (.inl rfl)
    refine ⟨_, answer, ?_⟩
    rw [asked (by simp [read])]
    refine ⟨by simp, by simp, by simp, by simp [read], by simp [channels, read], by simp [channels], fun j hj => ?_,
      counters, writer⟩
    simp [State.setTag_tag_of_ne _ _ (Ne.symm hj), State.attemptEnded_tag_of_ne _ _ (Ne.symm hj), tags]

end Sys2Proof.Machine

/-! PROOFS. START, RESUME and STOP (R28, R30, R38). -/

namespace Sys2Proof.Machine

set_option Elab.async false

/-! ## The channel that a command names, and the entry that a channel begins -/

theorem Arguments.channel_of_field {a : Arguments} {c : Fin 4} (h : field a[0] 0 8 = c.val) : a.channel = some c := by
  simp [Arguments.channel, h]

theorem Arguments.channel_eq_none {a : Arguments} (h : 3 < field a[0] 0 8) : a.channel = none :=
  dif_neg (by omega)

/-- The context of a channel that begins the entry of an index of the store (R3, R31). -/
def Channel.begunAt (ch : Channel) (n : Nat) (e : Entry) : Channel :=
  { ch with
    state := .running, entryIndex := n, entryUnbegun := false, captured := e, nextSegment := 0, completed := 0
    tolerated := 0, lastTolerated := none, sweepCursor := e.target, sweepPosition := 0, walk := none, prepared := none
    issueBuffer := List.replicate 16 0, sweepHeader := none, noticeWait := .absent }

/-- What beginning an entry of the store does: a check halts, or the entry takes its course (R3, R7, R31). -/
theorem EntryBegun.of_lt {c : Fin 4} {n : Nat} {s t : State} (h : State.EntryBegun c n s t) (hn : n ≤ 1023) :
    (∀ k, firstFailedCheck s.ownAddress none (s.entry n) = some k →
      t = s.setChannel c { (s.channel c).begunAt n (s.entry n) with
        state := .reporting, haltError := some .badEntry, haltDetail := ⟨none, some k, none⟩, resumeSegment := some 0
        heldSlot := some (.chHalted c (s.channel c).startSource n (some .badEntry) ⟨none, some k, none⟩ 0) }) ∧
    (firstFailedCheck s.ownAddress none (s.entry n) = none →
      State.CourseTaken (fun u => State.EntryBegun c (n + 1) u t) c
        (s.setChannel c ((s.channel c).begunAt n (s.entry n))) t) := by
  obtain ⟨left, hleft⟩ : ∃ left, 1024 - n = left + 1 := ⟨1023 - n, by omega⟩
  have index : 1024 - (left + 1) = n := by omega
  have next : 1024 - (n + 1) = left := by omega
  unfold State.EntryBegun at h ⊢
  rw [hleft, State.RunsFrom, index] at h
  rw [next]
  exact h

/-- Every check of an entry that has passed them is met (R8). -/
theorem check_of_passed {own : Nat} {resume : Option ResumePoint} {e : Entry}
    (h : firstFailedCheck own resume e = none) {k : Nat} {b : Bool} (check : (k, b) ∈ entryChecks own resume e) :
    b = false := by
  rw [firstFailedCheck, Option.map_eq_none_iff, List.find?_eq_none] at h
  simpa using h _ check

/-- An entry that makes requests and has passed its checks has a segment (R8, R10). -/
theorem segments_pos_of_passed {own : Nat} {resume : Option ResumePoint} {e : Entry}
    (h : firstFailedCheck own resume e = none) : 0 < e.segments := by
  have count := check_of_passed h (k := 4) (by simp [entryChecks]; rfl)
  unfold Entry.segments
  split
  · next chain =>
    simp only [chain, Bool.true_and, Bool.or_eq_false_iff, decide_eq_false_iff_not] at count
    omega
  · exact Nat.one_pos

/-- What entering an entry keeps: the entry index, that a latch is clear, and the tags of a channel that none of them ends
with. -/
structure EntryKept (c : Fin 4) (s t : State) : Prop where
  index : (t.channel c).entryIndex = (s.channel c).entryIndex
  latch : ∀ b, (s.booking b).latch = false → (t.booking b).latch = false
  tags : (∀ k, ¬ s.endsWith c k) → ∀ k, t.tag k = s.tag k

theorem setChannel_entryKept {c : Fin 4} {s : State} {ch : Channel} (h : ch.entryIndex = (s.channel c).entryIndex) :
    EntryKept c s (s.setChannel c ch) := ⟨by rw [State.setChannel_channel_self, h], fun _ h => h, fun _ _ => rfl⟩

theorem failChannel_entryKept (c : Fin 4) (error : HaltError) (detail : HaltDetail) (n : Nat) (s : State) :
    EntryKept c s (failChannel c error detail n s) := by
  obtain ⟨fails, failing, other⟩ := failChannel_segmentFails c error detail n s
  generalize failChannel c error detail n s = t at fails failing other
  by_cases active : (s.channel c).state = .running ∨ (s.channel c).state = .waiting
  · obtain ⟨⟨_, -, -, -, own⟩, -, -, kept, notices, -, -⟩ := fails active
    refine ⟨by rw [own]; rfl, fun b hb => ?_, fun none k => kept k (none k)⟩
    rw [State.booking, notices]
    exact hb
  · by_cases fail : (s.channel c).state = .failing
    · rw [failing fail]
      exact setChannel_entryKept rfl
    · rw [other (fun h => active (.inl h)) (fun h => active (.inr h)) fail]
      exact ⟨rfl, fun _ h => h, fun _ _ => rfl⟩

theorem endUnmet_entryKept (c : Fin 4) (r : Result) (error : HaltError) (detail : HaltDetail) (s : State) :
    EntryKept c s (endUnmet c r error detail s) := by
  by_cases h : (s.channel c).captured.disposition = some .tolerant
  · rw [endUnmet_of_tolerant r error detail h]
    exact setChannel_entryKept rfl
  · rw [endUnmet_of_not_tolerant r error detail h]
    exact failChannel_entryKept ..

theorem beginWait_entryKept (c : Fin 4) (b : Fin 16) (s : State) : EntryKept c s (beginWait c b s).1 := by
  unfold beginWait
  dsimp only
  split
  · refine ⟨rfl, fun j hj => ?_, fun _ _ => rfl⟩
    by_cases e : b = j
    · rw [← e, State.setBooking_booking_self]
    · rw [State.setBooking_booking_of_ne _ _ e]; exact hj
  · split
    · exact endUnmet_entryKept ..
    · exact setChannel_entryKept rfl

theorem enterEntry_entryKept (c : Fin 4) (s : State) : EntryKept c s (enterEntry c s).1 := by
  have same : EntryKept c s s := ⟨rfl, fun _ h => h, fun _ _ => rfl⟩
  unfold enterEntry
  dsimp only
  split
  · exact same
  · exact same
  · exact same
  · exact same
  · exact setChannel_entryKept rfl
  · split
    · exact beginWait_entryKept ..
    · exact same
  · exact setChannel_entryKept rfl
  · exact setChannel_entryKept rfl
  · exact same

/-- A channel that begins an entry stands at it or beyond it, sets no latch, and ends no other tags than those in
BACKOFF. -/
theorem runFrom_entryKept (left : Nat) (c : Fin 4) (s : State) :
    1024 - left ≤ ((runFrom left c s).channel c).entryIndex ∧
      (∀ b, (s.booking b).latch = false → ((runFrom left c s).booking b).latch = false) ∧
      ((∀ k, ¬ s.endsWith c k) → ∀ k, (runFrom left c s).tag k = s.tag k) := by
  induction left generalizing s with
  | zero => exact ⟨by simp [runFrom, badEntry, enterReporting, Channel.beginAt], fun _ h => h, fun _ _ => rfl⟩
  | succ left ih =>
    unfold runFrom
    dsimp only
    split
    · exact ⟨by simp [badEntry, enterReporting, Channel.beginAt], fun _ h => h, fun _ _ => rfl⟩
    · generalize hu : s.setChannel c ((s.channel c).beginAt (1024 - (left + 1)) (s.entry (1024 - (left + 1)))) = u
      have index : (u.channel c).entryIndex = 1024 - (left + 1) := by
        rw [← hu, State.setChannel_channel_self]; rfl
      have latch (b : Fin 16) (h : (s.booking b).latch = false) : (u.booking b).latch = false := by
        rw [← hu]; exact h
      have tag (k : Fin 16) : u.tag k = s.tag k := by rw [← hu]; rfl
      have ends (h : ∀ k, ¬ s.endsWith c k) (k : Fin 16) : ¬ u.endsWith c k := by
        simp only [State.endsWith, tag]; exact h k
      have kept := enterEntry_entryKept c u
      split
      · next v e =>
        rw [e] at kept
        obtain ⟨below, clear, same⟩ := ih v
        refine ⟨by omega, fun b h => clear b (kept.latch b (latch b h)), fun h k => ?_⟩
        have still := kept.tags (ends h)
        rw [same (fun j => by simp only [State.endsWith, still]; exact ends h j), still, tag]
      · next v e =>
        rw [e] at kept
        exact ⟨by rw [kept.index, index], fun b h => kept.latch b (latch b h),
          fun h k => (kept.tags (ends h) k).trans (tag k)⟩

/-- A finished entry leaves the tags of a channel that has none in BACKOFF. -/
theorem finishEntry_tag {c : Fin 4} {s : State} (h : ∀ k, ¬ s.endsWith c k) (k : Fin 16) :
    (finishEntry c s).tag k = s.tag k := by
  unfold finishEntry
  dsimp only
  split
  · obtain ⟨-, -, same⟩ := runFrom_entryKept (1024 - ((s.channel c).entryIndex + 1)) c s
    exact same h k
  · rfl

/-! ## START -/

/-- A channel that is started, its start source set and its halt context discarded (R28). -/
theorem startChannel_entryBegun (source : StartSource) (n : Nat) (c : Fin 4) (s : State) :
    State.EntryBegun c n (s.setChannel c { s.channel c with
      state := .running, startSource := source, haltError := none, haltDetail := HaltDetail.none
      resumeSegment := none }) (startChannel source n c s) := beginEntry_entryBegun ..

/-- A channel that begins an entry does not reach the others. -/
theorem startChannel_others (source : StartSource) (n : Nat) (c : Fin 4) (s : State) {d : Fin 4} (h : d ≠ c) :
    (startChannel source n c s).channel d = s.channel d :=
  ((setChannel_apart h.symm s _).trans (beginEntry_apart h.symm n _)).1

/-- A channel begins a WAIT on a booking whose latch is set: it consumes the latch and begins the next entry (R22). -/
theorem beginEntry_of_latched {c : Fin 4} {b : Fin 16} {n : Nat} {s : State} (hn : n ≤ 1023)
    (passed : firstFailedCheck s.ownAddress none (s.entry n) = none) (kind : (s.entry n).kind = some .wait)
    (names : (s.entry n).booking = b.val) (latched : (s.booking b).latch = true) :
    beginEntry n c s = beginEntry (n + 1) c
      ((s.setChannel c ((s.channel c).begunAt n (s.entry n))).setBooking b { s.booking b with latch := false }) := by
  obtain ⟨left, hleft⟩ : ∃ left, 1024 - n = left + 1 := ⟨1023 - n, by omega⟩
  have index : 1024 - (left + 1) = n := by omega
  have next : 1024 - (n + 1) = left := by omega
  have entered (u : State) (hu : u = s.setChannel c ((s.channel c).begunAt n (s.entry n))) :
      enterEntry c u = (u.setBooking b { u.booking b with latch := false }, true) := by
    have own : (u.channel c).captured = s.entry n := by rw [hu, State.setChannel_channel_self]; rfl
    have latch : (u.booking b).latch = true := by rw [hu]; exact latched
    simp [enterEntry, own, kind, names, beginWait, latch]
  unfold beginEntry
  rw [hleft, next, runFrom, index]
  simp only [State.setChannel_ownAddress, passed]
  rw [entered (s.setChannel c ((s.channel c).beginAt n (s.entry n))) rfl]
  rfl

section
variable {a : Arguments} {s : State} {c : Fin 4}

theorem takeStart_of_outOfRange (h : 3 < field a[0] 0 8 ∨ 1023 < field a[0] 16 16) (s : State) :
    takeStart a s = (.badArg, s) := by
  obtain high | high := h
  · simp only [takeStart, Arguments.channel_eq_none high]
  · unfold takeStart
    split
    · rfl
    · exact if_pos high

theorem takeStart_of_inRange (named : field a[0] 0 8 = c.val) (range : field a[0] 16 16 ≤ 1023) (s : State) :
    takeStart a s = if s.station.state ≠ .joined then (.badState, s)
      else if (s.channel c).state = .idle ∨ (s.channel c).state = .halted then
        (.done, startChannel .host (field a[0] 16 16) c s)
      else (.busy, s) := by
  simp only [takeStart, Arguments.channel_of_field named]
  rw [if_neg (show ¬ 1023 < a.startEntry from Nat.not_lt.mpr range)]
  cases (s.channel c).state <;> simp <;> rfl

theorem takeResume_of_outOfRange (h : 3 < field a[0] 0 8) (s : State) : takeResume a s = (.badArg, s) := by
  simp only [takeResume, Arguments.channel_eq_none h]

theorem takeResume_of_named (named : field a[0] 0 8 = c.val) (s : State) :
    takeResume a s = if s.station.state ≠ .joined ∨ (s.channel c).state = .idle then (.badState, s)
      else if (s.channel c).state = .halted then (.done, resumeChannel c s)
      else (.busy, s) := by
  simp only [takeResume, Arguments.channel_of_field named]
  cases (s.channel c).state <;> simp

end

/-- Settles O36, by the arguments, the station and channel states, the first check that fails and the kind of the
entry. -/
theorem startEffect : Obligations.StartEffect := by
  unfold Obligations.StartEffect
  intro s idle a n
  refine ⟨fun outOfRange => issue_taken idle (takeStart_of_outOfRange outOfRange s), fun c named range => ?_⟩
  have taken := takeStart_of_inRange named range s
  refine ⟨fun away => issue_taken idle ?_, fun joined notIdle notHalted => issue_taken idle ?_, fun joined ready => ?_⟩
  · rw [taken, if_pos away]
  · rw [taken, if_neg (not_not.mpr joined), if_neg (not_or.mpr ⟨notIdle, notHalted⟩)]
  have start : exec .start s = .next ((startChannel .host n c s).withResult .done) :=
    issue_taken idle (by rw [taken, if_neg (not_not.mpr joined), if_pos ready])
  have others (d : Fin 4) (h : d ≠ c) := startChannel_others .host n c s h
  have whole := startChannel_entryBegun .host n c s
  intro e checked begun
  obtain ⟨fails, course⟩ := EntryBegun.of_lt whole range
  rw [State.setChannel_channel_set, State.setChannel_channel_self] at course
  simp only [State.setChannel_channel_set, State.setChannel_channel_self] at fails
  have own : (s.setChannel c begun).channel c = begun := State.setChannel_channel_self ..
  have after (x : Channel) : (s.setChannel c begun).setChannel c x = s.setChannel c x := State.setChannel_channel_set ..
  have course (passed : checked = none) : State.CourseTaken
      (fun u => State.EntryBegun c (n + 1) u (startChannel .host n c s)) c (s.setChannel c begun)
      (startChannel .host n c s) := course passed
  simp only [State.CourseTaken, own, after] at course
  have latchTaken (b : Fin 16) (passed : checked = none) (kind : e.kind = some .wait) (names : e.booking = b.val)
      (latched : (s.booking b).latch = true) : startChannel .host n c s =
        beginEntry (n + 1) c ((s.setChannel c begun).setBooking b { s.booking b with latch := false }) := by
    have := beginEntry_of_latched (c := c) (s := s.setChannel c ((s.channel c).start .host)) range passed kind names latched
    rw [State.setChannel_channel_set, State.setChannel_channel_self] at this
    exact this
  rw [start]
  have ends {u : State} (h : startChannel .host n c s = u) :
      (.next ((startChannel .host n c s).withResult .done) : Host.Outcome State Fault Refusal) =
        .next (u.withResult .done) := by rw [h]
  refine ⟨fun k failed => ends (fails k failed), fun passed kind => ?_, fun passed kind => ?_, fun passed kind => ?_,
    fun passed requests => ?_, fun b passed kind names clear armed => ?_, fun b passed kind names latched => ?_,
    fun b passed kind names clear unarmed => ?_, ⟨_, rfl, whole⟩⟩
  · obtain ⟨endList, -⟩ := course passed
    exact ends (endList kind)
  · obtain ⟨-, mark, -⟩ := course passed
    exact ends (mark kind)
  · obtain ⟨-, -, notice, -⟩ := course passed
    exact ends (notice kind)
  · obtain ⟨-, -, -, ready, -⟩ := course passed
    exact ends (ready requests (.inr (segments_pos_of_passed passed)))
  · obtain ⟨-, -, -, -, -, wait⟩ := course passed
    obtain ⟨-, waits, -⟩ := wait b kind names
    exact ends (waits clear armed)
  · have e := latchTaken b passed kind names latched
    obtain ⟨beyond, latch, -⟩ := runFrom_entryKept (1024 - (n + 1)) c
      ((s.setChannel c begun).setBooking b { s.booking b with latch := false })
    refine ⟨⟨_, rfl, ?_⟩, _, rfl, ?_, ?_, others⟩
    · rw [e]
      exact beginEntry_entryBegun ..
    · rw [e]
      exact latch b (by rw [State.setBooking_booking_self])
    · rw [e]
      refine Nat.lt_of_lt_of_le ?_ beyond
      omega
  · obtain ⟨-, -, -, -, -, wait⟩ := course passed
    obtain ⟨-, -, unmet⟩ := wait b kind names
    obtain ⟨tolerant, halts⟩ := unmet clear unarmed
    refine ⟨fun other => ⟨_, rfl, ?_⟩, fun same => ends (tolerant same)⟩
    obtain ⟨fails, -⟩ := halts other
    exact fails (.inl (by rw [own]))

/-! ## RESUME -/

/-- The context of a channel that goes on at a segment of its entry (R30). -/
def Channel.resumedAt (ch : Channel) (e : Entry) (r : Nat) : Channel :=
  { ch with
    state := .running, captured := e, nextSegment := r, completed := r, tolerated := 0, lastTolerated := none
    resumeSegment := none, haltError := none, haltDetail := HaltDetail.none, startSource := .host
    walk := none, prepared := none, issueBuffer := List.replicate 16 0, sweepHeader := none, noticeWait := .absent }

section
variable {s : State} {c : Fin 4}

theorem resumeChannel_of_unbegun (h : (s.channel c).entryUnbegun = true) :
    resumeChannel c s = startChannel .host (s.channel c).entryIndex c s := if_pos h

theorem resumeChannel_of_end (begun : (s.channel c).entryUnbegun = false) (h : 1024 ≤ (s.channel c).entryIndex) :
    resumeChannel c s = beginEntry (s.channel c).entryIndex c s := by
  simp only [resumeChannel, begun, if_pos h]
  rfl

/-- A RESUME within the store: the entry is captured anew and checked with check 14, and a check that passes lets it take
its course from the resume segment (R4, R7, R30). -/
theorem resumeChannel_of_lt (begun : (s.channel c).entryUnbegun = false) (h : (s.channel c).entryIndex < 1024) {r : Nat}
    (segment : (s.channel c).resumeSegment = some r) :
    (∀ k, firstFailedCheck s.ownAddress (some ⟨(s.channel c).captured, r⟩) (s.entry (s.channel c).entryIndex) = some k →
      resumeChannel c s = s.setChannel c { s.channel c with
        state := .reporting, captured := s.entry (s.channel c).entryIndex, haltError := some .badEntry
        haltDetail := ⟨none, some k, none⟩, resumeSegment := some 0
        heldSlot := some (.chHalted c (s.channel c).startSource (s.channel c).entryIndex (some .badEntry)
          ⟨none, some k, none⟩ 0) }) ∧
    (firstFailedCheck s.ownAddress (some ⟨(s.channel c).captured, r⟩) (s.entry (s.channel c).entryIndex) = none →
      State.CourseTaken (fun u => State.EntryBegun c ((s.channel c).entryIndex + 1) u (resumeChannel c s)) c
        (s.setChannel c ((s.channel c).resumedAt (s.entry (s.channel c).entryIndex) r)) (resumeChannel c s)) := by
  have own (x : Channel) : (s.setChannel c x).ownAddress = s.ownAddress := rfl
  refine ⟨fun k failed => ?_, fun passed => ?_⟩
  · simp only [resumeChannel, begun, if_neg (Nat.not_le.mpr h), segment, Option.getD_some, own, failed]
    simp [badEntry, enterReporting, Channel.haltedEvent]
  · have resumed : (s.setChannel c { s.channel c with captured := s.entry (s.channel c).entryIndex }).setChannel c
        ((s.setChannel c { s.channel c with captured := s.entry (s.channel c).entryIndex }).channel c).resumeAt =
        s.setChannel c ((s.channel c).resumedAt (s.entry (s.channel c).entryIndex) r) := by
      rw [State.setChannel_channel_set, State.setChannel_channel_self, Channel.resumeAt, segment]
      rfl
    have point : (s.channel c).resumeSegment.getD 0 = r := by rw [segment]; rfl
    have key : resumeChannel c s =
        match enterEntry c (s.setChannel c ((s.channel c).resumedAt (s.entry (s.channel c).entryIndex) r)) with
        | (u, true) => beginEntry ((s.channel c).entryIndex + 1) c u
        | (u, false) => u := by
      unfold resumeChannel
      rw [if_neg (by rw [begun]; decide), if_neg (Nat.not_le.mpr h)]
      simp only [point, own, passed, resumed] <;> rfl
    rw [key]
    exact enterEntry_courseTaken (State.EntryBegun c ((s.channel c).entryIndex + 1))
      (beginEntry ((s.channel c).entryIndex + 1) c) (fun u => beginEntry_entryBegun ..) c _

end

/-- Settles O38, by the arguments, the station and channel states, whether the entry is begun, and its checks. -/
theorem resumeEffect : Obligations.ResumeEffect := by
  unfold Obligations.ResumeEffect
  intro s idle a
  refine ⟨fun outOfRange => issue_taken idle ?_, fun c named => ?_⟩
  · exact takeResume_of_outOfRange outOfRange s
  intro ch
  have taken := takeResume_of_named named s
  refine ⟨fun away => issue_taken idle ?_, fun joined state => issue_taken idle ?_,
    fun joined notIdle notHalted => issue_taken idle ?_, fun joined halted => ?_⟩
  · rw [taken, if_pos (.inl away)]
  · rw [taken, if_pos (.inr state)]
  · rw [taken, if_neg (not_or.mpr ⟨not_not.mpr joined, notIdle⟩), if_neg notHalted]
  have notIdle : (s.channel c).state ≠ .idle := by rw [halted]; decide
  have resume : exec .resume s = .next ((resumeChannel c s).withResult .done) :=
    issue_taken idle (by rw [taken, if_neg (not_or.mpr ⟨not_not.mpr joined, notIdle⟩), if_pos halted])
  rw [resume]
  refine ⟨fun unbegun => ⟨_, rfl, ?_⟩, fun begun last => ⟨_, rfl, ?_⟩, fun r begun inStore segment => ?_⟩
  · rw [resumeChannel_of_unbegun unbegun]
    exact startChannel_entryBegun ..
  · rw [resumeChannel_of_end begun last]
    exact beginEntry_entryBegun ..
  · obtain ⟨fails, course⟩ := resumeChannel_of_lt begun inStore segment
    intro e checked resumed
    refine ⟨fun k failed => ?_, fun passed requests within => ?_, fun passed => ⟨_, rfl, course passed⟩⟩
    · rw [fails k failed]
    · obtain ⟨-, -, -, ready, -⟩ := course passed
      have goesOn : resumeChannel c s = resumed := by
        apply ready
        · rw [State.setChannel_channel_self]; exact requests
        · rw [State.setChannel_channel_self]; exact within
      rw [goesOn]

/-! ## STOP -/

/-- The tags of a state that have a property have left their channel, and nothing else has changed. -/
structure TagsReleased (p : Fin 16 → Prop) (s t : State) : Prop where
  rest : { t with engine := { t.engine with tags := s.engine.tags } } = s
  released : ∀ k, p k → t.tag k = s.releasedTag k
  kept : ∀ k, ¬ p k → t.tag k = s.tag k

namespace TagsReleased

theorem refl (s : State) : TagsReleased (fun _ => False) s s := ⟨rfl, nofun, fun _ _ => rfl⟩

theorem congr {p q : Fin 16 → Prop} {s t : State} (h : TagsReleased p s t) (e : ∀ k, p k ↔ q k) : TagsReleased q s t :=
  ⟨h.rest, fun k hk => h.released k ((e k).mpr hk), fun k hk => h.kept k fun hp => hk ((e k).mp hp)⟩

theorem channel {p : Fin 16 → Prop} {s t : State} (h : TagsReleased p s t) (c : Fin 4) : t.channel c = s.channel c := by
  have := congrArg (fun u : State => u.channel c) h.rest
  exact this

theorem station {p : Fin 16 → Prop} {s t : State} (h : TagsReleased p s t) : t.station = s.station := by
  have := congrArg State.station h.rest
  exact this

/-- What has been released once is released again as it is. -/
theorem releasedTag_eq {s t : State} (station : t.station = s.station) {k : Fin 16} (h : t.tag k = s.releasedTag k) :
    t.releasedTag k = s.releasedTag k := by
  simp only [State.releasedTag, h, station]

theorem trans {p q : Fin 16 → Prop} {s t u : State} (h : TagsReleased p s t) (l : TagsReleased q t u) :
    TagsReleased (fun k => p k ∨ q k) s u where
  rest := by
    have := congrArg (fun v : State => { v with engine := { v.engine with tags := s.engine.tags } }) l.rest
    exact this.trans h.rest
  released k hk := by
    by_cases hq : q k
    · rw [l.released k hq]
      by_cases hp : p k
      · exact releasedTag_eq h.station (h.released k hp)
      · simp only [State.releasedTag, h.kept k hp, h.station]
    · rw [l.kept k hq, h.released k (hk.resolve_right hq)]
  kept k hk := by
    obtain ⟨hp, hq⟩ := not_or.mp hk
    rw [l.kept k hq, h.kept k hp]

end TagsReleased

theorem releaseTag_tagsReleased (k : Fin 16) (s : State) : TagsReleased (· = k) s (releaseTag k s) where
  rest := rfl
  released j hj := by
    obtain rfl := hj
    exact State.setTag_tag_self ..
  kept j hj := State.setTag_tag_of_ne _ _ (Ne.symm hj)

/-- The cancelling of some completion writes releases their tags (R67). -/
theorem cancelWrite_foldl_tagsReleased (l : List CompletionWrite) (s : State) :
    TagsReleased (fun k => ∃ w ∈ l, w.tag = some k) s (l.foldl cancelWrite s) := by
  induction l generalizing s with
  | nil => exact (TagsReleased.refl s).congr (by simp)
  | cons w l ih =>
    have one : TagsReleased (fun k => w.tag = some k) s (cancelWrite s w) := by
      unfold cancelWrite
      split
      · next k h => exact (releaseTag_tagsReleased k s).congr fun j => by rw [h]; simp [eq_comm]
      · next h => exact (TagsReleased.refl s).congr fun j => by rw [h]; simp
    exact (one.trans (ih _)).congr (by simp)

/-- The tags in BACKOFF of a channel that goes STOPPING are released (R71). -/
theorem endBackoffTag_foldl_tagsReleased {c : Fin 4} (l : List (Fin 16)) (s : State)
    (stopping : (s.channel c).state = .stopping) :
    TagsReleased (fun k => k ∈ l ∧ s.endsWith c k) s (l.foldl (endBackoffTag c) s) := by
  induction l generalizing s with
  | nil => exact (TagsReleased.refl s).congr (by simp)
  | cons k l ih =>
    have one : TagsReleased (fun j => j = k ∧ s.endsWith c k) s (endBackoffTag c s k) := by
      unfold endBackoffTag
      split
      · next h =>
        have same : segmentFailed c (s.tag k).segment (releaseTag k s) = releaseTag k s :=
          if_neg (by rw [releaseTag_channel, stopping]; decide)
        rw [same]
        exact (releaseTag_tagsReleased k s).congr fun j => (and_iff_left h).symm
      · next h => exact (TagsReleased.refl s).congr fun j => (iff_of_false id fun hj => h hj.2)
    refine (one.trans (ih _ (by rw [one.channel]; exact stopping))).congr fun j => ?_
    by_cases hj : j = k ∧ s.endsWith c k
    · obtain ⟨rfl, ends⟩ := hj
      simp [ends]
    · have same : (endBackoffTag c s k).endsWith c j ↔ s.endsWith c j := by
        simp only [State.endsWith, one.kept j hj]
      rw [same, List.mem_cons]
      constructor
      · rintro (h | ⟨h, ends⟩)
        · exact absurd h hj
        · exact ⟨.inr h, ends⟩
      · rintro ⟨rfl | h, ends⟩
        · exact absurd ⟨rfl, ends⟩ hj
        · exact .inr ⟨h, ends⟩

/-- STOP of a channel at work (R39). -/
theorem stopChannel_stopped (c : Fin 4) (s : State) : let t := stopChannel c s
    { t with engine := s.engine, notices := s.notices } = s ∧
    t.channel c = { (s.channel c).left with
      state := .stopping, writes := (s.channel c).writes.filter CompletionWrite.begun } ∧
    (∀ d, d ≠ c → t.channel d = s.channel d) ∧ t.notices = { s.notices with queue := s.detachedNotices c } ∧
    (∀ k, (∃ w ∈ (s.channel c).writes, w.begun = false ∧ w.tag = some k) ∨ s.endsWith c k → t.tag k = s.releasedTag k) ∧
    ∀ k, ¬ (∃ w ∈ (s.channel c).writes, w.begun = false ∧ w.tag = some k) → ¬ s.endsWith c k → t.tag k = s.tag k := by
  let u := (detachNotices c s).setChannel c { (s.channel c).left with state := .stopping }
  let l := (s.channel c).writes.filter fun w => !w.begun
  let v := l.foldl cancelWrite u
  let w := v.setChannel c { v.channel c with writes := (s.channel c).writes.filter CompletionWrite.begun }
  have own : u.channel c = { (s.channel c).left with state := .stopping } := State.setChannel_channel_self ..
  have key : stopChannel c s = (List.finRange 16).foldl (endBackoffTag c) w := by
    have leaves : (detachNotices c s).setChannel c { ((detachNotices c s).channel c).leaveRunning with
        state := .stopping } = u := by
      rw [leaveRunning_eq]; rfl
    unfold stopChannel
    simp only [leaves, cancelWaitingWrites, own]
    rfl
  have cancelled := cancelWrite_foldl_tagsReleased l u
  have ended := endBackoffTag_foldl_tagsReleased (c := c) (List.finRange 16) w
    (by rw [State.setChannel_channel_self, cancelled.channel, own])
  intro t
  have ended : TagsReleased (fun k => k ∈ List.finRange 16 ∧ w.endsWith c k) w t := by
    rw [show t = _ from key]; exact ended
  clear_value t
  have channelOf : w.channel c = { (s.channel c).left with
      state := .stopping, writes := (s.channel c).writes.filter CompletionWrite.begun } := by
    rw [State.setChannel_channel_self, cancelled.channel, own]
  have waiting (k : Fin 16) : (∃ x ∈ l, x.tag = some k) ↔
      ∃ x ∈ (s.channel c).writes, x.begun = false ∧ x.tag = some k := by simp [l, and_assoc]
  have released (k : Fin 16) (h : ∃ x ∈ l, x.tag = some k) : w.tag k = s.releasedTag k := cancelled.released k h
  have kept (k : Fin 16) (h : ¬ ∃ x ∈ l, x.tag = some k) : w.tag k = s.tag k := cancelled.kept k h
  have station : w.station = s.station := cancelled.station
  let freed (x : State) : State := { x with engine := s.engine, notices := s.notices }
  have outer : freed t = freed w := congrArg freed ended.rest (a₁ := { t with engine := _ })
  have inner : freed w = s := congrArg freed cancelled.rest (a₁ := { v with engine := _ })
  have notices : t.notices = u.notices := by
    have outer : t.notices = w.notices := congrArg State.notices ended.rest (a₁ := { t with engine := _ })
    have inner : w.notices = u.notices := congrArg State.notices cancelled.rest (a₁ := { v with engine := _ })
    exact outer.trans inner
  refine ⟨outer.trans inner, (ended.channel c).trans channelOf, fun d hd => ?_, notices, fun k hk => ?_,
    fun k waits ends => ?_⟩
  · rw [ended.channel, State.setChannel_channel_of_ne _ _ (Ne.symm hd), cancelled.channel]
    exact State.setChannel_channel_of_ne _ _ (Ne.symm hd)
  · rw [← waiting] at hk
    by_cases waits : ∃ x ∈ l, x.tag = some k
    · have after : w.releasedTag k = s.releasedTag k := TagsReleased.releasedTag_eq station (released k waits)
      by_cases ends : w.endsWith c k
      · rw [ended.released k ⟨List.mem_finRange k, ends⟩, after]
      · rw [ended.kept k fun h => ends h.2, released k waits]
    · have ends : w.endsWith c k := by
        simp only [State.endsWith, kept k waits]
        exact hk.resolve_left waits
      rw [ended.released k ⟨List.mem_finRange k, ends⟩]
      simp only [State.releasedTag, kept k waits, station]
  · rw [← waiting] at waits
    rw [ended.kept k, kept k waits]
    rintro ⟨-, h⟩
    simp only [State.endsWith, kept k waits] at h
    exact ends h

theorem takeStop_of_outOfRange {a : Arguments} (h : 3 < field a[0] 0 8) (s : State) : takeStop a s = (.badArg, s) := by
  simp only [takeStop, Arguments.channel_eq_none h]

/-- Settles O37, by the arguments and the channel state. -/
theorem stopEffect : Obligations.StopEffect := by
  unfold Obligations.StopEffect
  intro s idle a
  refine ⟨fun outOfRange => issue_taken idle (takeStop_of_outOfRange outOfRange s), fun c named => ?_⟩
  intro ch
  have channel : Arguments.channel s.port.arguments = some c := Arguments.channel_of_field named
  refine ⟨fun state => issue_taken idle ?_, fun busy => issue_taken idle ?_, fun halted => issue_taken idle ?_,
    fun works => ⟨_, issue_taken idle (r := .accepted) (t := stopChannel c s) ?_, ?_⟩⟩
  · simp only [takeStop, channel, show (s.channel c).state = .idle from state]
  · have busy : (s.channel c).state = .stopping ∨ (s.channel c).state = .failing ∨ (s.channel c).state = .reporting := busy
    obtain state | state | state := busy <;> simp only [takeStop, channel, state]
  · simp only [takeStop, channel, show (s.channel c).state = .halted from halted]
  · have works : (s.channel c).state = .running ∨ (s.channel c).state = .waiting := works
    obtain state | state := works <;> simp only [takeStop, channel, state]
  · obtain ⟨rest, own, others, notices, released, kept⟩ := stopChannel_stopped c s
    have frame := stopChannel_frame c s
    have trunk := congrArg State.trunk rest
    generalize stopChannel c s = t at *
    exact ⟨by rw [State.withResult, frame.port]; rfl, own, others, notices, released, kept, frame.listStore, frame.memory,
      frame.responder, frame.station, trunk, frame.counters, frame.writer⟩

end Sys2Proof.Machine

/-! PROOFS. Slots and tries of the trunk, and what the end of a RUNNING channel's attempt does (R56, R63, R165, R168). -/

namespace Sys2Proof.Machine

set_option Elab.async false

/-! ## A RUNNING channel's attempt that has not succeeded -/

theorem State.attemptEnded_eq (s : State) (k : Fin 16) (r : Result) : s.attemptEnded k r =
    (withdrawTry (TryFrame.isRequestOf k) s).setTag k { s.tag k with lastOutcome := some r, timer := .stopped } := by
  rw [withdrawTry_request]; rfl

theorem State.attemptEnded_of_idle {s : State} (k : Fin 16) (r : Result) (h : s.trunk.line = none) :
    s.attemptEnded k r = s.setTag k { s.tag k with lastOutcome := some r, timer := .stopped } := by
  have none : withdrawTry (TryFrame.isRequestOf k) s = s := by unfold withdrawTry; rw [h]
  rw [State.attemptEnded_eq, none]

/-- The state in which an attempt has ended and its tag has left its channel (R68). -/
def State.attemptReleased (s : State) (k : Fin 16) (r : Result) : State :=
  (s.attemptEnded k r).setTag k ((s.attemptEnded k r).releasedTag k)

theorem State.attemptReleased_eq (s : State) (k : Fin 16) (r : Result) : s.attemptReleased k r =
    (withdrawTry (TryFrame.isRequestOf k) s).setTag k { s.tag k with
      state := if (s.tag k).unanswered then .cooling else .free
      owner := none, lastOutcome := some r, completing := false
      timer := if (s.tag k).unanswered then .running (2 * s.station.config.replyDeadline.toNat) else .stopped } := by
  have station : (s.attemptEnded k r).station = s.station := rfl
  rw [State.attemptReleased, State.releasedTag, State.attemptEnded_tag_self, station, State.attemptEnded_eq,
    State.setTag_tag_set]

@[simp] theorem State.attemptReleased_channel (s : State) (k : Fin 16) (r : Result) (c : Fin 4) :
    (s.attemptReleased k r).channel c = s.channel c := rfl

namespace OutcomeTaken

section
variable {k : Fin 16} {r : Result} {s t : State} {c : Fin 4}

/-- Under STRICT the channel halts with the outcome (R77). -/
theorem of_strict (h : State.OutcomeTaken k r s t) (owner : (s.tag k).owner = some c)
    (running : (s.channel c).state = .running) (sweep : (s.tag k).sweep = false) (failed : ¬ r.succeeds)
    (strict : (s.channel c).captured.disposition = some .strict) :
    State.ChannelFails c (r.halt (decide ((s.tag k).operation = .claim))).1
      ⟨some (s.tag k).target, (r.halt (decide ((s.tag k).operation = .claim))).2.1,
        (r.halt (decide ((s.tag k).operation = .claim))).2.2⟩ (s.tag k).segment (s.attemptReleased k r) t := by
  obtain ⟨-, owned⟩ := h
  obtain ⟨-, -, unmet, -⟩ := owned c owner
  obtain ⟨halts, -⟩ := unmet running sweep failed
  exact halts strict

/-- Under TOLERANT the segment is counted and resolved, and the last one finishes the entry (R31, R79). -/
theorem of_tolerant (h : State.OutcomeTaken k r s t) (owner : (s.tag k).owner = some c)
    (running : (s.channel c).state = .running) (sweep : (s.tag k).sweep = false) (failed : ¬ r.succeeds)
    (tolerant : (s.channel c).captured.disposition = some .tolerant) :
    let u := (s.attemptReleased k r).setChannel c { s.channel c with
      completed := (s.channel c).completed + 1, tolerated := (s.channel c).tolerated + 1, lastTolerated := some r }
    ((s.channel c).completed + 1 < (s.channel c).captured.segments → t = u) ∧
      ((s.channel c).captured.segments ≤ (s.channel c).completed + 1 → State.EntryFinished c u t) := by
  obtain ⟨-, owned⟩ := h
  obtain ⟨-, resolved, -⟩ := owned c owner
  obtain ⟨-, -, goesOn⟩ := resolved (.inl running) sweep
  obtain ⟨finished, others⟩ := goesOn failed tolerant
  have unswept : (s.channel c).captured.isSweep = false := by simp [Entry.isSweep, tolerant]
  exact ⟨fun more => others (.inr (.inr more)), fun last => finished running unswept last⟩

/-- Under PERSIST below the limit the segment is retried after the retry interval (R81). -/
theorem of_persist_below (h : State.OutcomeTaken k r s t) (owner : (s.tag k).owner = some c)
    (running : (s.channel c).state = .running) (sweep : (s.tag k).sweep = false) (failed : ¬ r.succeeds)
    (persist : (s.channel c).captured.disposition = some .persist)
    (retried : r.retried (decide ((s.tag k).operation = .claim)))
    (below : (s.tag k).attempts < (s.channel c).captured.limit) :
    t = (s.attemptEnded k r).setTag k { s.tag k with
      lastOutcome := some r, state := .backoff, timer := .running s.station.config.retryInterval.toNat } := by
  obtain ⟨-, owned⟩ := h
  obtain ⟨-, -, unmet, -⟩ := owned c owner
  obtain ⟨-, persists⟩ := unmet running sweep failed
  obtain ⟨-, retries, -⟩ := persists persist
  exact retries retried below

/-- Under PERSIST at the limit the channel halts (R82). -/
theorem of_persist_exhausted (h : State.OutcomeTaken k r s t) (owner : (s.tag k).owner = some c)
    (running : (s.channel c).state = .running) (sweep : (s.tag k).sweep = false) (failed : ¬ r.succeeds)
    (persist : (s.channel c).captured.disposition = some .persist)
    (retried : r.retried (decide ((s.tag k).operation = .claim)))
    (limit : (s.channel c).captured.limit ≤ (s.tag k).attempts) :
    (decide ((s.tag k).operation = .claim) = true ∧ (r = .timeout ∨ r = .link) →
      State.ChannelFails c (r.halt (decide ((s.tag k).operation = .claim))).1
        ⟨some (s.tag k).target, (r.halt (decide ((s.tag k).operation = .claim))).2.1,
          (r.halt (decide ((s.tag k).operation = .claim))).2.2⟩ (s.tag k).segment (s.attemptReleased k r) t) ∧
    (¬ (decide ((s.tag k).operation = .claim) = true ∧ (r = .timeout ∨ r = .link)) →
      State.ChannelFails c .persistExhausted ⟨some (s.tag k).target, some r.code, r.previous⟩ (s.tag k).segment
        (s.attemptReleased k r) t) := by
  obtain ⟨-, owned⟩ := h
  obtain ⟨-, -, unmet, -⟩ := owned c owner
  obtain ⟨-, persists⟩ := unmet running sweep failed
  obtain ⟨-, -, exhausted⟩ := persists persist
  exact exhausted retried limit

/-- Under SWEEP a WRITE_IMMEDIATE's outcome is counted, and the cursor moves past the peer (R86). -/
theorem of_sweep_write (h : State.OutcomeTaken k r s t) (owner : (s.tag k).owner = some c)
    (running : (s.channel c).state = .running) (sweep : (s.tag k).sweep = true) (failed : ¬ r.succeeds)
    (write : (s.tag k).operation ≠ .read) :
    t = (s.attemptReleased k r).setChannel c { s.channel c with
      completed := (s.channel c).completed + 1, tolerated := (s.channel c).tolerated + 1, lastTolerated := some r
      sweepCursor := (s.tag k).target + 1 } := by
  obtain ⟨-, owned⟩ := h
  obtain ⟨-, -, -, -, swept⟩ := owned c owner
  obtain ⟨-, -, counted⟩ := swept (.inl running) sweep
  exact counted write failed

/-- Under SWEEP a READ's record is asked for (R86). -/
theorem of_sweep_read (h : State.OutcomeTaken k r s t) (owner : (s.tag k).owner = some c)
    (running : (s.channel c).state = .running) (sweep : (s.tag k).sweep = true) (read : (s.tag k).operation = .read) :
    State.RecordAsked c k r (s.attemptEnded k r) t := by
  obtain ⟨-, owned⟩ := h
  obtain ⟨-, -, -, -, swept⟩ := owned c owner
  exact (swept (.inl running) sweep).1 read

end

end OutcomeTaken

/-- A channel has halted after the release of a tag, which the halt does not reach again. -/
structure Halted (c : Fin 4) (k : Fin 16) (error : HaltError) (detail : HaltDetail) (segment : Nat) (s t : State) :
    Prop where
  state : (t.channel c).state = .failing
  error : (t.channel c).haltError = some error
  detail : (t.channel c).haltDetail = detail
  resume : ∃ n ≤ segment, (t.channel c).resumeSegment = some n
  tag : t.tag k = s.tag k
  others : ∀ d, d ≠ c → t.channel d = s.channel d
  lastServed : t.engine.lastServed = s.engine.lastServed
  rest : { t with engine := s.engine, notices := s.notices } = s

theorem ChannelFails.halted_after {c : Fin 4} {k : Fin 16} {error : HaltError} {detail : HaltDetail} {segment : Nat}
    {s t : State} (h : State.ChannelFails c error detail segment s t) (released : (s.tag k).owner = none) :
    Halted c k error detail segment s t := by
  obtain ⟨⟨n, low, -, -, own⟩, others, -, kept, -, last, rest⟩ := h
  have tag := kept k fun ⟨_, _, owner⟩ => by rw [released] at owner; cases owner
  refine ⟨?_, ?_, ?_, ⟨n, low, ?_⟩, tag, others, last, rest⟩ <;> rw [own]

end Sys2Proof.Machine

/-! PROOFS. The grant of a tag (R53, R54, R55). -/

namespace Sys2Proof.Machine

set_option Elab.async false

/-- A search through all numbers finds the lowest that has a property. -/
theorem find_finRange {n : Nat} {p : Fin n → Bool} {i : Fin n} (h : p i = true) (low : ∀ j, j < i → p j = false) :
    (List.finRange n).find? p = some i := by
  rw [List.find?_eq_some_iff_getElem]
  refine ⟨h, i.val, by simp, by simp, fun j hj => ?_⟩
  simp only [List.getElem_finRange, Bool.not_eq_true']
  exact low _ hj

/-! ## The allocator -/

/-- The first candidate, where it has a target, takes the tag (R53). -/
theorem grantFrom_of_first {c : Fin 4} {k : Fin 16} {p : PreparedSegment} {target : Nat} {l : List (Fin 4)} {s : State}
    (first : l.find? s.candidate = some c) (free : s.freeTag = some k) (prepared : (s.channel c).prepared = some p)
    (towards : s.grantTarget c = some target) : grantFrom l s = grantTag c k p target s := by
  induction l with
  | nil => cases first
  | cons d l ih =>
    unfold grantFrom
    rw [List.find?_cons] at first
    cases candidate : s.candidate d with
    | true =>
      rw [candidate] at first
      obtain rfl : d = c := Option.some.inj first
      simp only [free, prepared, towards, if_true]
    | false =>
      rw [candidate] at first
      exact ih first

theorem grantFrom_of_none {l : List (Fin 4)} {s : State} (h : ∀ d ∈ l, s.candidate d = false) : grantFrom l s = s := by
  induction l with
  | nil => rfl
  | cons d l ih =>
    unfold grantFrom
    rw [h d List.mem_cons_self]
    exact ih fun d hd => h d (List.mem_cons_of_mem _ hd)

/-- The only candidate is a sweep without a target: its segment is discarded, and the allocator goes on (R53, R84). -/
theorem grantFrom_of_discarded {c : Fin 4} {k : Fin 16} {p : PreparedSegment} {l : List (Fin 4)} {s : State}
    (mem : c ∈ l) (nodup : l.Nodup) (candidate : s.candidate c = true) (free : s.freeTag = some k)
    (prepared : (s.channel c).prepared = some p) (nowhere : s.grantTarget c = none)
    (others : ∀ d, d ≠ c → s.candidate d = false) (after : ∀ d, d ≠ c → (discardSweep c s).candidate d = false) :
    grantFrom l s = discardSweep c s := by
  induction l with
  | nil => cases mem
  | cons d l ih =>
    obtain ⟨notMem, nodup⟩ := List.nodup_cons.mp nodup
    unfold grantFrom
    by_cases hd : d = c
    · subst hd
      simp only [candidate, free, prepared, nowhere, if_true]
      exact grantFrom_of_none fun e he => after e fun h => notMem (h ▸ he)
    · rw [others d hd]
      exact ih ((List.mem_cons.mp mem).resolve_left (Ne.symm hd)) nodup

/-- Whether a channel is a candidate depends on the station's state, its own context and the tags (R52). -/
theorem candidate_congr {d : Fin 4} {s t : State} (station : t.station = s.station) (channel : t.channel d = s.channel d)
    (tags : ∀ k, t.tag k = s.tag k) : t.candidate d = s.candidate d := by
  have table : t.engine.tags = s.engine.tags := Vector.ext fun i hi => tags ⟨i, hi⟩
  unfold State.candidate State.outstanding State.claimOutstanding
  rw [station, channel, table]

/-- A channel with no outstanding tag has none in BACKOFF. -/
theorem not_endsWith_of_outstanding {c : Fin 4} {s : State} (h : s.outstanding c = 0) (k : Fin 16) :
    ¬ s.endsWith c k := by
  rintro ⟨state, -, owner⟩
  rw [State.outstanding, List.countP_eq_zero] at h
  refine h (s.tag k) ?_ ?_
  · simp [State.tag]
  · simp [Tag.owned, state, owner]

/-- The discarding of a sweep's segment makes no other channel a candidate. -/
theorem discardSweep_candidate {c d : Fin 4} {s : State} (hd : d ≠ c) (idle : s.outstanding c = 0) :
    (discardSweep c s).candidate d = s.candidate d := by
  have others : (discardSweep c s).channel d = s.channel d :=
    ((setChannel_apart hd.symm s _).trans (finishEntry_apart hd.symm _)).1
  exact candidate_congr (discardSweep_frame c s).station others
    (finishEntry_tag (not_endsWith_of_outstanding (s := s.setChannel c _) idle))

/-! ## The grant -/

/-- The lowest qualifying peer of a sweep, or that there is none (R85). -/
theorem sweepChoice_of_lowest {c : Fin 4} {i : Fin 40} {s : State} (above : (s.channel c).sweepCursor ≤ i.val + 1)
    (other : i.val + 1 ≠ s.ownAddress) (present : (s.peer i).present = true)
    (window : (s.peer i).mask.getLsbD (s.channel c).captured.window = true)
    (low : ∀ j, j < i → ¬ ((s.channel c).sweepCursor ≤ j.val + 1 ∧ j.val + 1 ≠ s.ownAddress ∧ (s.peer j).present = true ∧
      (s.peer j).mask.getLsbD (s.channel c).captured.window = true)) : s.sweepChoice c = some i := by
  refine find_finRange (by simp [above, other, present, window]) fun j hj => ?_
  rw [← Bool.not_eq_true]
  simpa [and_assoc] using low j hj

theorem sweepChoice_eq_none {c : Fin 4} {s : State}
    (h : ∀ i : Fin 40, ¬ ((s.channel c).sweepCursor ≤ i.val + 1 ∧ i.val + 1 ≠ s.ownAddress ∧ (s.peer i).present = true ∧
      (s.peer i).mask.getLsbD (s.channel c).captured.window = true)) : s.sweepChoice c = none := by
  refine List.find?_eq_none.mpr fun i _ => ?_
  simpa [and_assoc] using h i

/-- The withdrawal of a try changes the trunk alone (R170). -/
theorem withdrawTry_eq (f : TryFrame → Bool) (s : State) :
    withdrawTry f s = { s with trunk := (withdrawTry f s).trunk } := by
  unfold withdrawTry
  split
  · split <;> rfl
  · rfl

theorem withdrawTry_setTag (f : TryFrame → Bool) (s : State) (k : Fin 16) (x : Tag) :
    withdrawTry f (s.setTag k x) = (withdrawTry f s).setTag k x := by
  unfold withdrawTry
  rw [State.setTag_trunk]
  split
  · split <;> rfl
  · rfl

theorem withdrawTry_setChannel (f : TryFrame → Bool) (s : State) (c : Fin 4) (x : Channel) :
    withdrawTry f (s.setChannel c x) = (withdrawTry f s).setChannel c x := by
  unfold withdrawTry
  rw [State.setChannel_trunk]
  split
  · split <;> rfl
  · rfl

/-- The fields of a granted tag, by the entry's kind (R55). -/
theorem filledTag_eq (g : Tag) (c : Fin 4) (ch : Channel) (p : PreparedSegment) (target : Nat)
    (h : ch.captured.makesRequests = true) : filledTag g c ch p target = { g with
      state := .queued, owner := some c, segment := p.segment, sweep := ch.captured.isSweep
      operation := if ch.captured.kind = some .read then .read else if ch.captured.kind = some .claim then .claim
        else .write
      target := target, window := ch.captured.window
      offset := if ch.captured.usesChain = true ∧ ch.captured.isSweep = false
        then ch.captured.offset + 16 * p.segment else ch.captured.offset
      count := ch.captured.segmentWords p.segment, generation := !g.generation
      attempts := 1, onLine := false, lastAnswered := false, unanswered := false, completing := false
      lastOutcome := none, repeated := false, sameOnLine := false, otherOnLine := false, tries := 0, timer := .stopped
      destination := if ch.captured.kind = some .read ∧ ch.captured.isSweep = false then some p.placement else none
      payload := if ch.captured.kind = some .read then g.payload
        else if ch.captured.kind = some .write then ch.issueBuffer
        else if ch.captured.kind = some .claim then [ch.captured.expected, ch.captured.replacement]
        else if ch.captured.count = 2 then [ch.captured.dataA, ch.captured.dataB] else [ch.captured.dataA]
      header := if ch.captured.isSweep = true then ch.sweepHeader else none } := by
  cases kind : ch.captured.kind with
  | none => simp [Entry.makesRequests, Entry.usesChain, kind] at h
  | some x =>
    simp only [filledTag, Entry.operation, Entry.segmentOffset, Entry.usesChain, Entry.ownPayload, kind]
    cases x <;> simp [Entry.makesRequests, Entry.usesChain, kind] at h ⊢

theorem not_succeeds_absent : ¬ Result.succeeds .absent := by simp [Result.succeeds]

theorem retried_absent (claim : Bool) : Result.retried claim .absent := .inr (.inr (.inr (.inl rfl)))

/-- Settles O42: the first candidate takes the tag, which is QUEUED or ends its attempt at once. -/
theorem tagGrant : Obligations.TagGrant := by
  unfold Obligations.TagGrant
  intro c k p s ch e qualifies joined running prepared below unclaimed free low granted issued served
  have candidate : s.candidate c = true := by
    have claim : ¬ (e.kind = some .claim ∧ s.claimOutstanding e.target = true) := fun ⟨h, h'⟩ => by
      rw [unclaimed h] at h'; cases h'
    have state : (s.channel c).state = .running := running
    have segment : (s.channel c).prepared = some p := prepared
    have limit : s.outstanding c < (s.channel c).captured.limitOutstanding := below
    have free : (!(decide ((s.channel c).captured.kind = some .claim) &&
        s.claimOutstanding (s.channel c).captured.target)) = true := by
      rw [Bool.not_eq_true', ← Bool.not_eq_true, Bool.and_eq_true, decide_eq_true_eq]
      exact claim
    simp [State.candidate, joined, state, segment, limit, free]
  have freeTag : s.freeTag = some k := find_finRange (by simpa using free) fun j hj => by simpa using low j hj
  refine ⟨fun target requests first named swept => ?_, fun sweep nowhere alone => ⟨discardSweep c s, ?_, ?_⟩⟩
  · have chosen : (rotation4 s.engine.lastServed).find? s.candidate = some c :=
      (find_rotation4 _ _ _).mpr ⟨candidate, first⟩
    have towards : s.grantTarget c = some target := by
      unfold State.grantTarget
      by_cases sweep : e.isSweep = true
      · obtain ⟨i, ⟨above, other, present, window⟩, lowest, rfl⟩ := swept sweep
        rw [if_pos sweep, sweepChoice_of_lowest above other present window lowest]
        rfl
      · rw [if_neg sweep, named (Bool.eq_false_iff.mpr sweep)]
    let u := (served.setTag k (granted target)).setChannel c issued
    have grant : exec .tagGrant s = .next (attemptBegins k u) := by
      refine congrArg Host.Outcome.next ((grantFrom_of_first chosen freeTag prepared towards).trans ?_)
      have filled : filledTag (s.tag k) c (s.channel c) p target = granted target :=
        filledTag_eq (s.tag k) c (s.channel c) p target requests
      unfold grantTag
      simp only [filled]
      rfl
    have tag : u.tag k = granted target := State.setTag_tag_self served k (granted target)
    have channel : u.channel c = issued := State.setChannel_channel_self ..
    refine ⟨fun present => ?_, fun absent unswept => ?_⟩
    · rw [grant, attemptBegins, if_pos]
      rw [tag]
      exact present
    · have ends : attemptBegins k u = attemptOutcome k .absent u := if_neg (by
        rw [tag, show u.isPresent (granted target).target = false from absent]; decide)
      have taken := attemptOutcome_outcomeTaken k .absent u
      rw [grant, ends]
      generalize attemptOutcome k .absent u = t at taken
      intro unsent ended halted tolerated
      have running : (u.channel c).state = .running := by rw [channel]; exact running
      have owner : (u.tag k).owner = some c := by rw [tag]
      have sweep : (u.tag k).sweep = false := by rw [tag]; exact unswept
      have unsentTo (x : Tag) : (withdrawTry (TryFrame.isRequestOf k) u).setTag k x =
          (unsent.setTag k x).setChannel c issued := by
        rw [withdrawTry_setChannel, withdrawTry_setTag, setChannel_setTag, State.setTag_tag_set]
      have after : u.attemptEnded k .absent =
          (unsent.setTag k { granted target with lastOutcome := some .absent }).setChannel c issued := by
        rw [State.attemptEnded_eq, tag, unsentTo]
      have released : u.attemptReleased k .absent = (unsent.setTag k ended).setChannel c issued := by
        rw [State.attemptReleased_eq, tag, unsentTo]
        rfl
      obtain ⟨trunk, same⟩ : ∃ x, unsent = { served with trunk := x } := ⟨_, withdrawTry_eq ..⟩
      clear_value unsent
      subst same
      have halts {error : HaltError} {status : Option Nat}
          (h : State.ChannelFails c error ⟨some (u.tag k).target, status, none⟩ (u.tag k).segment
            (u.attemptReleased k .absent) t) : halted error status := by
        rw [tag, released] at h
        have h := ChannelFails.halted_after (k := k) h (by rw [State.setChannel_tag_eq, State.setTag_tag_self])
        have rest {α : Type} (f : State → α) := congrArg f h.rest
        exact ⟨t, rfl, h.lastServed, h.state, h.error, h.detail, h.resume,
          h.tag.trans (by rw [State.setChannel_tag_eq, State.setTag_tag_self]),
          fun d hd => (h.others d hd).trans (State.setChannel_channel_of_ne _ _ (Ne.symm hd)), rest State.trunk,
          rest State.station, rest State.responder, rest State.writer, rest State.counters, rest State.listStore⟩
      refine ⟨⟨t, rfl, taken⟩, fun strict => ?_, fun tolerant => ?_, fun persist => ⟨fun below => ?_, fun limit => ?_⟩⟩
      · have fails := OutcomeTaken.of_strict taken owner running sweep not_succeeds_absent (by rw [channel]; exact strict)
        exact halts fails
      · have counted := OutcomeTaken.of_tolerant taken owner running sweep not_succeeds_absent
          (by rw [channel]; exact tolerant)
        rw [released, channel, State.setChannel_channel_set] at counted
        obtain ⟨more, last⟩ := counted
        exact ⟨fun h => congrArg Host.Outcome.next (more h), fun h => ⟨t, rfl, last h⟩⟩
      · have retried := OutcomeTaken.of_persist_below taken owner running sweep not_succeeds_absent
          (by rw [channel]; exact persist) (retried_absent _) (by rw [tag, channel]; exact below)
        rw [retried, after, tag, setChannel_setTag, State.setTag_tag_set]
        rfl
      · obtain ⟨-, fails⟩ := OutcomeTaken.of_persist_exhausted taken owner running sweep not_succeeds_absent
          (by rw [channel]; exact persist) (retried_absent _) (by rw [tag, channel]; exact limit)
        exact halts (fails (by simp))
  · have nowhere : s.grantTarget c = none := by
      unfold State.grantTarget
      rw [if_pos sweep, sweepChoice_eq_none nowhere]
      rfl
    have idle : s.outstanding c = 0 := by
      have limit : e.limitOutstanding = 1 := by simp [Entry.limitOutstanding, sweep]
      omega
    refine congrArg Host.Outcome.next (grantFrom_of_discarded ?_ ?_ candidate freeTag prepared nowhere alone ?_)
    · have every : ∀ last c : Fin 4, c ∈ rotation4 last := by decide
      exact every _ c
    · have distinct : ∀ last : Fin 4, (rotation4 last).Nodup := by decide
      exact distinct _
    · exact fun d hd => (discardSweep_candidate hd idle).trans (alone d hd)
  · exact finishEntry_entryFinished ..

end Sys2Proof.Machine

/-! PROOFS. Contention slots, and the ends of tries (R56, R165, R166, R168, R169, R170). -/

namespace Sys2Proof.Machine

set_option Elab.async false

/-! ## Contention -/

/-- The contention key as a number: the class above the source (R164). -/
theorem contentionKey_toNat (s : State) (f : TryFrame) : (s.contentionKey f).toNat = 64 * f.class + s.ownAddress := by
  have cls : f.class < 4 := by cases f <;> simp [TryFrame.class]
  have strap : s.station.strap.toNat < 64 := s.station.strap.isLt
  have low : s.station.strap.toNat % 256 = s.station.strap.toNat := Nat.mod_eq_of_lt (by omega)
  have high : 64 * f.class % 256 = 64 * f.class := Nat.mod_eq_of_lt (by omega)
  have sum := Nat.two_pow_add_eq_or_of_lt (i := 6) strap f.class
  simp only [State.contentionKey, State.ownAddress, BitVec.toNat_or, BitVec.toNat_ofNat, BitVec.toNat_setWidth]
  rw [show 2 ^ 8 = 256 from rfl, low, high]
  exact sum.symm

/-- A key wins where no other station holds a lower one (R165). -/
theorem keyWins_iff (s : State) (f : TryFrame) (rival : Option Byte) : keyWins (s.contentionKey f) rival = true ↔
    ∀ r, rival = some r → 64 * f.class + s.ownAddress ≤ r.toNat := by
  cases rival with
  | none => simp [keyWins]
  | some r => simp [keyWins, BitVec.le_def, contentionKey_toNat]

section
variable {rival : Option Byte} {s : State}

/-- A slot in which the station offers a frame: it wins and begins a try, or changes nothing (R165). -/
theorem contend_of_selected {f : TryFrame} {bytes : List Byte} (silent : s.trunk.line = none) (on : s.onTrunk = true)
    (selected : s.selected = some (f, bytes)) :
    ((∀ r, rival = some r → 64 * f.class + s.ownAddress ≤ r.toNat) →
      exec (.contentionSlot rival) s = .next (beginTry f bytes s)) ∧
    (¬ (∀ r, rival = some r → 64 * f.class + s.ownAddress ≤ r.toNat) → exec (.contentionSlot rival) s = .next s) := by
  have offered : s.offered = some (f, bytes) := by rw [State.offered, if_pos on, selected]
  have slot : contend rival s = if keyWins (s.contentionKey f) rival then beginTry f bytes s else s := by
    unfold contend
    rw [if_neg (by rw [silent]; decide), offered]
  refine ⟨fun wins => congrArg Host.Outcome.next ?_, fun loses => congrArg Host.Outcome.next ?_⟩
  · rw [slot, if_pos ((keyWins_iff ..).mpr wins)]
  · rw [slot, if_neg (mt (keyWins_iff ..).mp loses)]

/-- A slot in which the station offers nothing: a quiet one clears the yield flag (R165, R167). -/
theorem contend_of_nothing (silent : s.trunk.line = none) (selected : s.selected = none) :
    (rival = none → exec (.contentionSlot rival) s = .next { s with trunk := { s.trunk with yielding := false } }) ∧
    (rival ≠ none → exec (.contentionSlot rival) s = .next s) := by
  have offered : s.offered = none := by unfold State.offered; split <;> [exact selected; rfl]
  have slot : contend rival s = if rival.isSome then s else { s with trunk := { s.trunk with yielding := false } } := by
    unfold contend
    rw [if_neg (by rw [silent]; decide), offered]
  refine ⟨fun quiet => congrArg Host.Outcome.next ?_, fun loud => congrArg Host.Outcome.next ?_⟩
  · rw [slot, if_neg (by rw [quiet]; decide)]
  · rw [slot, if_pos (Option.isSome_iff_ne_none.mpr loud)]

end

/-- Settles O29, by the frame that the selector chooses. -/
theorem contentionSlotEffect : Obligations.ContentionSlotEffect := by
  unfold Obligations.ContentionSlotEffect
  intro rival s silent on wins
  refine ⟨fun r rest replies => ?_, fun p replies pending => ?_, fun n rest replies pending queue => ?_,
    fun k replies pending queue yielding => ?_,
    fun replies pending queue nothing => contend_of_nothing silent ?_⟩
  · have selected : s.selected = some (.reply, s.replyFrame r.reply) := by simp [State.selected, replies]
    obtain ⟨won, lost⟩ := contend_of_selected (rival := rival) silent on selected
    refine ⟨fun h => (won h).trans (congrArg Host.Outcome.next ?_), lost⟩
    simp [beginTry, countTry, replies, TryFrame.isRequest]
  · have selected : s.selected = some (.presence p.fresh, s.presenceFrame p) := by
      simp [State.selected, replies, pending]
    obtain ⟨won, lost⟩ := contend_of_selected (rival := rival) silent on selected
    refine ⟨fun h => (won h).trans (congrArg Host.Outcome.next ?_), lost⟩
    simp [beginTry, countTry, pending, TryFrame.isRequest]
  · have selected : s.selected =
        some (.notice n.destination ⟨s.ownAddress, n.code, n.argument⟩, s.noticeFrame n) := by
      simp [State.selected, replies, pending, queue]
    obtain ⟨won, lost⟩ := contend_of_selected (rival := rival) silent on selected
    refine ⟨fun h => (won h).trans (congrArg Host.Outcome.next ?_), lost⟩
    simp [beginTry, countTry, queue, TryFrame.isRequest]
  · intro offered before offer chosen
    have onOffer (j : Fin 16) : (s.tag j).onOffer = true ↔ offered j := by simp [Tag.onOffer, offered]
    have rotated : s.rotatedTag = some k := by
      obtain ⟨turn, first⟩ := rotatedTag_of s k ((onOffer k).mpr offer)
      obtain ⟨tried, none⟩ | ⟨untried, none⟩ := chosen
      · exact turn tried fun j hj h => none j hj ((onOffer j).mp h)
      · refine first (fun j h => untried j ((onOffer j).mp h)) fun j hj => ?_
        rw [← Bool.not_eq_true, onOffer]
        exact none j hj
    have selected : s.selected = some (.request k, s.requestFrame k) := by
      simp [State.selected, replies, pending, queue, yielding, rotated]
    obtain ⟨won, lost⟩ := contend_of_selected (rival := rival) silent on selected
    refine ⟨fun h => (won h).trans (congrArg Host.Outcome.next ?_), lost⟩
    simp [beginTry, countTry, TryFrame.isRequest]
  · have unrotated (h : ∀ k, (s.tag k).onOffer = false) : s.rotatedTag = none := by
      simp [State.rotatedTag, Tag.keepsTurn, h]
    obtain yielding | idle := nothing
    · simp [State.selected, replies, pending, queue, yielding]
    · simp [State.selected, replies, pending, queue, unrotated idle]

/-! ## The ends of tries -/

/-- The state in which a try has left the line (R168). -/
def State.silenced (s : State) : State := { s with trunk := { s.trunk with line := none } }

section
variable {f : TryFrame} {bytes echo : List Byte} {fate : TryFate} {heard : Bool} {s : State}

/-- A try whose echo is complete ends so (R168). -/
theorem tryEnds_of_complete (line : s.trunk.line = some ⟨f, bytes, fate, heard⟩) : tryEnds bytes s =
    endTry ⟨f, bytes, fate, heard⟩ true (awaitHearing ⟨f, bytes, fate, heard⟩ true s.silenced) := by
  have complete : Try.echoComplete ⟨f, bytes, fate, heard⟩ bytes = true := by simp [Try.echoComplete]
  unfold tryEnds
  rw [line]
  simp only [complete, State.echoConflicts, Bool.not_true, Bool.false_and, Bool.false_eq_true, if_false]
  rfl

theorem awaitHearing_of_failed (x : Try) (s : State) : awaitHearing x false s = s := by
  unfold awaitHearing
  split <;> rfl

/-- Only an own notice still offered waits to be heard (R21). -/
theorem awaitHearing_of_other {x : Try} (h : s.ownNotice x = none) (complete : Bool) : awaitHearing x complete s = s := by
  unfold awaitHearing
  rw [h]

/-- A try of a frame still offered whose echo is neither complete nor a conflict (R168). -/
theorem tryEnds_of_failed (line : s.trunk.line = some ⟨f, bytes, .live, false⟩) (differs : echo ≠ bytes)
    (peaceful : checkGood echo = false ∨ sourceOf echo ≠ s.ownAddress) :
    exec (.tryEnd echo) s = .next (if 4 ≤ s.triesOf f then endTransmission f false s.silenced else s.silenced) := by
  have failed : Try.echoComplete ⟨f, bytes, .live, false⟩ echo = false := by simp [Try.echoComplete, differs]
  have conflict : s.echoConflicts ⟨f, bytes, .live, false⟩ echo = false := by
    unfold State.echoConflicts
    obtain h | h := peaceful <;> simp [h]
  have ends : tryEnds echo s = endTry ⟨f, bytes, .live, false⟩ false (awaitHearing ⟨f, bytes, .live, false⟩ false
      s.silenced) := by
    unfold tryEnds
    rw [line]
    simp only [failed, conflict, Bool.false_eq_true, if_false]
    rfl
  have tries : s.silenced.triesOf f = s.triesOf f := by cases f <;> rfl
  refine congrArg Host.Outcome.next (ends.trans ?_)
  rw [awaitHearing_of_failed]
  simp only [endTry, endLiveTry, tries, Bool.false_eq_true, if_false]

end

/-- What the echo of a notice leaves to be heard here (R21, R130). -/
theorem awaitHearing_notice (destination : Nat) (arrival : NoticeArrival) (bytes : List Byte) (heard : Bool) (s : State) :
    awaitHearing ⟨.notice destination arrival, bytes, .live, heard⟩ true s = { s with notices := { s.notices with
      ownEchoes := s.notices.ownEchoes ++
        (if heard = false ∧ (destination = 0 ∨ destination = s.ownAddress) then [arrival] else []) } } := by
  by_cases here : destination = 0 ∨ destination = s.ownAddress
  · cases heard <;> simp [awaitHearing, State.ownNotice, here]
  · simp [awaitHearing, State.ownNotice, here]

/-- A channel whose notice has been sent has finished its entry (R20, R130). -/
theorem reportNotice_of_complete {n : QueuedNotice} {c : Fin 4} {s : State} (origin : n.origin = .channel c)
    (running : (s.channel c).state = .running) (waits : (s.channel c).noticeWait = .echo) :
    reportNotice n true s = finishEntry c (s.setChannel c { s.channel c with noticeWait := .absent }) := by
  simp [reportNotice, origin, running, waits]

/-- Settles O30, by the frame and what has become of it. -/
theorem tryEndComplete : Obligations.TryEndComplete := by
  unfold Obligations.TryEndComplete
  intro bytes s ended
  have other {f : TryFrame} {fate : TryFate} {heard : Bool} (line : s.trunk.line = some ⟨f, bytes, fate, heard⟩)
      (h : ended.ownNotice ⟨f, bytes, fate, heard⟩ = none) :
      exec (.tryEnd bytes) s = .next (endTry ⟨f, bytes, fate, heard⟩ true ended) :=
    congrArg Host.Outcome.next ((tryEnds_of_complete line).trans (congrArg _ (awaitHearing_of_other h true)))
  refine ⟨fun k line => other line rfl, fun line => other line rfl, fun fresh p line pending => ?_,
    fun destination arrival heard n rest line queue => ?_, fun k heard line => other line rfl,
    fun f heard directed line => ?_, fun fresh heard line => ?_⟩
  · have pending' : ended.station.pending = some p := pending
    have ends : exec (.tryEnd bytes) s = .next (endPresence true ended) := other line rfl
    have fresh : (if (true && p.fresh) = true then false else s.station.fresh) = (s.station.fresh && !p.fresh) := by
      cases p.fresh <;> simp
    rw [ends]
    unfold endPresence
    rw [pending']
    refine ⟨fun stays => congrArg Host.Outcome.next ?_, fun leaves => ⟨_, rfl, ?_⟩⟩
    · dsimp only
      rw [if_neg (by rw [stays]; decide), fresh]
    · dsimp only
      rw [if_pos leaves]
      exact returnOffline_returnedOffline ..
  · intro reported
    have ends : exec (.tryEnd bytes) s = .next (reportNotice n true reported) := by
      refine congrArg Host.Outcome.next ((tryEnds_of_complete line).trans ?_)
      rw [awaitHearing_notice]
      show popNotice true _ = _
      unfold popNotice
      have queue' : s.silenced.notices.queue = n :: rest := queue
      simp only [queue']
      rfl
    rw [ends]
    refine ⟨fun origin => congrArg Host.Outcome.next ?_, fun c origin running waits => ⟨_, rfl, ?_⟩⟩
    · obtain origin | origin := origin <;> simp [reportNotice, origin]
    · have report : reportNotice n true reported =
          finishEntry c (reported.setChannel c { s.channel c with noticeWait := .absent }) :=
        reportNotice_of_complete origin running waits
      rw [report]
      exact finishEntry_entryFinished ..
  · have withdrawn : ended.ownNotice ⟨f, bytes, .withdrawn, heard⟩ = none := by cases f <;> rfl
    rw [other line withdrawn]
    cases f with
    | request k => exact absurd rfl (directed k)
    | reply => rfl
    | presence fresh => rfl
    | notice destination arrival => rfl
  · rw [other line rfl]
    cases fresh
    · simp [endTry, endReplacedTry, ended]
    · simp [endTry, endReplacedTry, ended]

theorem not_succeeds_link : ¬ Result.succeeds .link := by simp [Result.succeeds]

theorem retried_link (claim : Bool) : Result.retried claim .link := .inr (.inr (.inl rfl))

/-- The record of an outcome without words is its header alone (R95). -/
theorem RecordAsked.of_unanswered {c : Fin 4} {k : Fin 16} {r : Result} {s t : State} (h : State.RecordAsked c k r s t)
    (failed : r ≠ .accepted) : t = (s.setTag k { s.tag k with completing := true, timer := .stopped }).setChannel c
      { s.channel c with
        sweepHeader := none
        writes := (s.channel c).writes ++ [{
          tag := some k, segment := (s.tag k).segment, record := some ⟨(s.tag k).target, r, []⟩
          stage := .writing [⟨(s.tag k).header.getD 0, (s.tag k).header.getD 0,
            [place (s.tag k).target 0 ||| place r.code 8]⟩]
          begun := false }] } := by
  have empty : place ([] : List Word).length 16 = 0#32 := by decide
  obtain ⟨asked, -⟩ := h
  simpa only [if_neg failed, empty, BitVec.or_zero, forall_const] using asked

/-- Settles O31, by the number of tries, the frame, and of a request the disposition of its owner. -/
theorem tryEndFailed : Obligations.TryEndFailed := by
  unfold Obligations.TryEndFailed
  intro f bytes echo s line differs peaceful ended counted
  have ends := tryEnds_of_failed line differs peaceful
  have abandoned := endTransmission_frameAbandoned f ended
  have last (h : 4 ≤ s.triesOf f) : exec (.tryEnd echo) s = .next (endTransmission f false ended) := by
    rw [ends, if_pos h]; rfl
  generalize endTransmission f false ended = t at abandoned last
  obtain ⟨reply, presence, notice, request⟩ := id abandoned
  refine ⟨fun h => ?_, fun h => ⟨t, last h, abandoned⟩, fun h kind => (last h).trans (congrArg _ (reply kind)),
    fun fresh p h kind pending => ?_, fun destination arrival n rest h kind queue => ?_,
    fun k c h kind owner running => ?_⟩
  · rw [ends, if_neg (by omega)]; rfl
  · obtain ⟨stays, leaves⟩ := presence fresh p kind pending
    exact ⟨fun hp => (last h).trans (congrArg _ (stays hp)), fun hp => ⟨t, last h, leaves hp⟩⟩
  · obtain ⟨detached, host, channel⟩ := notice destination arrival n rest kind queue
    refine ⟨fun hn => (last h).trans (congrArg _ (detached hn)), fun hn => (last h).trans (congrArg _ (host hn)),
      fun c hn running waits => ⟨t, last h, ?_⟩⟩
    obtain ⟨told, -⟩ := channel c hn
    obtain ⟨tolerant, halts⟩ := told running waits
    by_cases disposition : (s.channel c).captured.disposition = some .tolerant
    · have e := tolerant disposition
      rw [e]
      simp only [State.setChannel_channel_self]
      exact ⟨rfl, fun _ => ⟨running, rfl⟩, fun h => absurd disposition h,
        fun d hd => State.setChannel_channel_of_ne _ _ (Ne.symm hd), rfl, rfl, rfl, rfl⟩
    · obtain ⟨⟨m, low, -, -, own⟩, others, -, -, -, -, rest⟩ := halts disposition
      have same {α : Type} (g : State → α) := congrArg g rest
      obtain rfl : m = 0 := Nat.le_zero.mp low
      rw [own]
      exact ⟨rfl, fun h => absurd h disposition, fun _ => ⟨rfl, rfl, rfl, rfl⟩, others, same State.counters,
        same State.station, same State.writer, same State.trunk⟩
  · intro tag ch e passed cooling halted tolerated
    let u := passed.setTag k { tag with unanswered := true }
    have taken : State.OutcomeTaken k .link u t := request k kind
    have own : u.tag k = { tag with unanswered := true } := State.setTag_tag_self passed k _
    have owner : (u.tag k).owner = some c := by rw [own]; exact owner
    have ended' : u.attemptEnded k .link = passed.setTag k { tag with
        unanswered := true, lastOutcome := some .link, timer := .stopped } := by
      rw [State.attemptEnded_of_idle k .link (s := u) rfl, own, State.setTag_tag_set]
    have released : u.attemptReleased k .link = passed.setTag k cooling := by
      rw [State.attemptReleased, State.releasedTag, ended', State.setTag_tag_self, State.setTag_tag_set]
      rfl
    have halts {error : HaltError} {status : Option Nat}
        (fails : State.ChannelFails c error ⟨some (u.tag k).target, status, none⟩ (u.tag k).segment
          (u.attemptReleased k .link) t) : halted error status := by
      rw [own, released] at fails
      have fails := ChannelFails.halted_after (k := k) fails (by rw [State.setTag_tag_self])
      have same {α : Type} (g : State → α) := congrArg g fails.rest
      exact ⟨t, last h, same State.trunk, same State.counters, fails.state, fails.error, fails.detail, fails.resume,
        fails.tag.trans (State.setTag_tag_self ..), fails.others, same State.station, same State.responder,
        same State.listStore, same State.writer⟩
    have operation : (u.tag k).operation = tag.operation := by rw [own]
    have target : (u.tag k).target = tag.target := by rw [own]
    refine ⟨fun sweep strict => ?_, fun sweep tolerant => ?_, fun sweep persist => ⟨fun below => ?_, fun limit => ?_⟩,
      fun sweep write => ?_, fun header sweep read hasHeader => ?_⟩
    · have fails := OutcomeTaken.of_strict taken owner running (by rw [own]; exact sweep) not_succeeds_link strict
      rw [operation] at fails
      exact ⟨fun other => halts (by simpa [other, Result.halt] using fails),
        fun claim => halts (by simpa [claim, Result.halt] using fails)⟩
    · obtain ⟨more, final⟩ := OutcomeTaken.of_tolerant taken owner running (by rw [own]; exact sweep) not_succeeds_link
        tolerant
      rw [released] at more final
      exact ⟨fun below => (last h).trans (congrArg _ (more below)), fun resolved => ⟨t, last h, final resolved⟩⟩
    · have e := OutcomeTaken.of_persist_below taken owner running (by rw [own]; exact sweep) not_succeeds_link persist
        (retried_link _) (by rw [own]; exact below)
      rw [ended', own, State.setTag_tag_set] at e
      exact (last h).trans (congrArg _ e)
    · obtain ⟨uncertain, exhausted⟩ := OutcomeTaken.of_persist_exhausted taken owner running (by rw [own]; exact sweep)
        not_succeeds_link persist (retried_link _) (by rw [own]; exact limit)
      rw [operation] at uncertain exhausted
      refine ⟨fun other => halts (exhausted (by simp [other])), fun claim => halts ?_⟩
      simpa [claim, Result.halt] using uncertain (by simp [claim])
    · have e := OutcomeTaken.of_sweep_write taken owner running (by rw [own]; exact sweep) not_succeeds_link
        (by rw [operation]; exact write)
      rw [released, own] at e
      exact (last h).trans (congrArg _ e)
    · have e := RecordAsked.of_unanswered (OutcomeTaken.of_sweep_read taken owner running (by rw [own]; exact sweep)
        (by rw [operation]; exact read)) (by decide)
      rw [ended', State.setTag_tag_self, State.setTag_tag_set, show (_ : Tag).header.getD 0 = header from
        congrArg (fun x : Option Word => x.getD 0) hasHeader] at e
      exact (last h).trans (congrArg _ e)

end Sys2Proof.Machine

/-! PROOFS. The evaluation of a notice against the bookings (R29, R133 to R138). -/

namespace Sys2Proof.Machine

set_option Elab.async false

/-! ## What an evaluation leaves and what it writes -/

/-- A booking with its latch left out: all that the other bookings' actions keep. -/
def Booking.unlatched (b : Booking) : Booking := { b with latch := false }

/-- A booking that has acted: counted, and SPENT in mode ONCE (R138). -/
def Booking.acted (b : Booking) : Booking :=
  { b with matchCount := satInc b.matchCount, state := if b.once then .spent else b.state }

theorem matchesArrival_congr {b b' : Booking} (h : b'.unlatched = b.unlatched) (n : NoticeArrival) :
    b'.matchesArrival n = b.matchesArrival n := by
  have state := congrArg Booking.state h
  have filter := congrArg Booking.filter h
  have code := congrArg Booking.code h
  simp only [Booking.unlatched] at state filter code
  simp only [Booking.matchesArrival, state, filter, code]

theorem acted_congr {b b' : Booking} (h : b'.unlatched = b.unlatched) : b'.acted.unlatched = b.acted.unlatched := by
  show b'.unlatched.acted = b.unlatched.acted
  rw [h]

/-- Some bookings have been compared with an arrival: those that match have acted, the others are as they were but for
their latches, and the blocks behind them are as they were. -/
structure Evaluated (n : NoticeArrival) (l : List (Fin 16)) (s t : State) : Prop where
  listStore : t.listStore = s.listStore
  port : t.port = s.port
  responder : t.responder = s.responder
  memory : t.memory = s.memory
  station : t.station = s.station
  ownEchoes : t.notices.ownEchoes = s.notices.ownEchoes
  acted : ∀ b ∈ l, (s.booking b).matchesArrival n = true → (t.booking b).unlatched = (s.booking b).acted.unlatched
  kept : ∀ b, b ∉ l ∨ (s.booking b).matchesArrival n = false → (t.booking b).unlatched = (s.booking b).unlatched

namespace Evaluated

variable {n : NoticeArrival}

theorem refl (s : State) : Evaluated n [] s s := ⟨rfl, rfl, rfl, rfl, rfl, rfl, nofun, fun _ _ => rfl⟩

theorem trans {l l' : List (Fin 16)} {s t u : State} (h : Evaluated n l s t) (k : Evaluated n l' t u)
    (apart : ∀ b ∈ l, b ∉ l') : Evaluated n (l ++ l') s u where
  listStore := k.listStore.trans h.listStore
  port := k.port.trans h.port
  responder := k.responder.trans h.responder
  memory := k.memory.trans h.memory
  station := k.station.trans h.station
  ownEchoes := k.ownEchoes.trans h.ownEchoes
  acted b hb hm := by
    by_cases hl : b ∈ l
    · rw [k.kept b (.inl (apart b hl)), h.acted b hl hm]
    · have same := h.kept b (.inl hl)
      have hl' : b ∈ l' := (List.mem_append.mp hb).resolve_left hl
      rw [k.acted b hl' ((matchesArrival_congr same n).trans hm)]
      exact acted_congr same
  kept b hb := by
    by_cases hl : b ∈ l ∧ (s.booking b).matchesArrival n = true
    · obtain ⟨hl, hm⟩ := hl
      obtain hb | hb := hb
      · exact absurd (List.mem_append_left _ hl) hb
      · rw [hm] at hb; cases hb
    · have same := h.kept b <| by
        by_cases mem : b ∈ l
        · exact .inr (Bool.eq_false_iff.mpr fun hm => hl ⟨mem, hm⟩)
        · exact .inl mem
      rw [k.kept b, same]
      obtain hb | hb := hb
      · exact .inl fun mem => hb (List.mem_append_right _ mem)
      · exact .inr ((matchesArrival_congr same n).trans hb)

theorem of_engine {s t : State} (h : EngineFrame s t) : Evaluated n [] s t :=
  ⟨h.listStore, h.port, h.responder, h.memory, h.station, h.ownEchoes, nofun, fun b _ => h.booking b⟩

/-- A step that lets no booking act, between two that do. -/
theorem before {l : List (Fin 16)} {s t u : State} (h : Evaluated n [] s t) (k : Evaluated n l t u) :
    Evaluated n l s u := h.trans k nofun

theorem after {l : List (Fin 16)} {s t u : State} (h : Evaluated n l s t) (k : Evaluated n [] t u) :
    Evaluated n l s u := by
  have := h.trans k fun _ _ => List.not_mem_nil
  rwa [List.append_nil] at this

end Evaluated

theorem offerDroppable_evaluated (n : NoticeArrival) (e : Event) (s : State) : Evaluated n [] s (offerDroppable e s) := by
  unfold offerDroppable
  split <;> exact ⟨rfl, rfl, rfl, rfl, rfl, rfl, nofun, fun _ _ => rfl⟩

theorem setLatch_evaluated (n : NoticeArrival) (b : Fin 16) (x : Bool) (s : State) :
    Evaluated n [] s (s.setBooking b { s.booking b with latch := x }) := by
  refine ⟨rfl, rfl, rfl, rfl, rfl, rfl, nofun, fun j _ => ?_⟩
  by_cases h : b = j
  · rw [← h, State.setBooking_booking_self]; rfl
  · rw [State.setBooking_booking_of_ne _ _ h]

theorem startAction_evaluated (n : NoticeArrival) (b : Fin 16) (s : State) : Evaluated n [] s (startAction b s).1 := by
  unfold startAction
  dsimp only
  split
  · split
    · exact .of_engine (setChannel_frame ..)
    · exact offerDroppable_evaluated ..
  · exact .refl s

theorem releaseAction_evaluated (n : NoticeArrival) (b : Fin 16) (s : State) :
    Evaluated n [] s (releaseAction b s) := by
  unfold releaseAction
  split
  · exact setLatch_evaluated ..
  · exact .of_engine (EngineFrame.foldl (fun s c => releaseChannel_frame c s) _ s)

/-! ## The stages of one booking's actions -/

/-- A matching booking is counted (R138). -/
def State.counted (s : State) (b : Fin 16) : State :=
  s.setBooking b { s.booking b with matchCount := satInc (s.booking b).matchCount }

/-- POST (R136). -/
def State.posted (s : State) (n : NoticeArrival) (b : Fin 16) : State :=
  if (s.booking b).post then offerDroppable (.noticeSeen b n.source n.code n.argument) s else s

/-- START (R136). -/
def State.started (s : State) (b : Fin 16) : State × Option StartedChannel :=
  if (s.booking b).start then startAction b s else (s, none)

/-- RELEASE (R137). -/
def State.released (s : State) (b : Fin 16) : State := if (s.booking b).release then releaseAction b s else s

/-- The end of a mode ONCE (R138). -/
def State.spent (s : State) (b : Fin 16) : State :=
  if (s.booking b).once then s.setBooking b { s.booking b with state := .spent } else s

theorem unlatched_fields {b b' : Booking} (h : b'.unlatched = b.unlatched) :
    b'.post = b.post ∧ b'.start = b.start ∧ b'.release = b.release ∧ b'.once = b.once ∧
      b'.startChannel = b.startChannel ∧ b'.startEntry = b.startEntry ∧ b'.state = b.state ∧
      b'.matchCount = b.matchCount := by
  have field {α : Type} (f : Booking → α) : f b'.unlatched = f b.unlatched := congrArg f h
  exact ⟨field Booking.post, field Booking.start, field Booking.release, field Booking.once, field Booking.startChannel,
    field Booking.startEntry, field Booking.state, field Booking.matchCount⟩

theorem State.posted_evaluated (s : State) (n : NoticeArrival) (b : Fin 16) : Evaluated n [] s (s.posted n b) := by
  unfold State.posted
  split
  · exact offerDroppable_evaluated ..
  · exact .refl s

theorem State.started_evaluated (s : State) (n : NoticeArrival) (b : Fin 16) : Evaluated n [] s (s.started b).1 := by
  unfold State.started
  split
  · exact startAction_evaluated ..
  · exact .refl s

theorem State.released_evaluated (s : State) (n : NoticeArrival) (b : Fin 16) : Evaluated n [] s (s.released b) := by
  unfold State.released
  split
  · exact releaseAction_evaluated ..
  · exact .refl s

/-- One matching booking acts: it is counted, posts, starts, releases, and is SPENT (R135 to R138). -/
theorem bookingActs_eq (n : NoticeArrival) (b : Fin 16) (s : State) : bookingActs n b s =
    (((((s.counted b).posted n b).started b).1.released b).spent b, (((s.counted b).posted n b).started b).2) := by
  have posted := (State.posted_evaluated (s.counted b) n b).kept b (.inl List.not_mem_nil)
  have started := (State.started_evaluated ((s.counted b).posted n b) n b).kept b (.inl List.not_mem_nil)
  have released := (State.released_evaluated (((s.counted b).posted n b).started b).1 n b).kept b (.inl List.not_mem_nil)
  obtain ⟨-, start, -, -, -⟩ := unlatched_fields posted
  obtain ⟨-, -, release, -, -⟩ := unlatched_fields (started.trans posted)
  obtain ⟨-, -, -, once, -⟩ := unlatched_fields (released.trans (started.trans posted))
  unfold State.spent
  rw [once]
  unfold State.released
  rw [release]
  unfold State.started
  rw [start]
  rfl

/-- The state before a mode ONCE ends: counted, posted, started and released. -/
theorem stages_evaluated (n : NoticeArrival) (b : Fin 16) (s : State) :
    Evaluated n [] (s.counted b) ((((s.counted b).posted n b).started b).1.released b) :=
  (State.posted_evaluated _ n b).before ((State.started_evaluated _ n b).before (State.released_evaluated _ n b))

theorem State.counted_booking_self (s : State) (b : Fin 16) : (s.counted b).booking b =
    { s.booking b with matchCount := satInc (s.booking b).matchCount } := State.setBooking_booking_self ..

theorem State.counted_booking_of_ne (s : State) {b j : Fin 16} (h : b ≠ j) : (s.counted b).booking j = s.booking j :=
  State.setBooking_booking_of_ne _ _ h

theorem State.spent_booking_of_ne (s : State) {b j : Fin 16} (h : b ≠ j) : (s.spent b).booking j = s.booking j := by
  unfold State.spent
  split
  · exact State.setBooking_booking_of_ne _ _ h
  · rfl

/-- A booking that has been counted and has acted. -/
theorem State.spent_booking_self {s v : State} {b : Fin 16}
    (h : (v.booking b).unlatched = ((s.counted b).booking b).unlatched) :
    ((v.spent b).booking b).unlatched = (s.booking b).acted.unlatched := by
  have mode : (v.booking b).once = (s.booking b).once := by
    obtain ⟨-, -, -, once, -⟩ := unlatched_fields h
    rw [once, State.counted_booking_self]
  have same := h.trans (congrArg Booking.unlatched (s.counted_booking_self b))
  unfold State.spent
  rw [mode]
  cases once : (s.booking b).once with
  | false =>
    rw [if_neg (by decide), same]
    simp [Booking.acted, Booking.unlatched, once]
  | true =>
    rw [if_pos rfl, State.setBooking_booking_self]
    have ended := congrArg (fun x : Booking => { x with state := BookingState.spent }) same
    refine ended.trans ?_
    simp [Booking.acted, Booking.unlatched, once]

theorem bookingActs_evaluated {n : NoticeArrival} {b : Fin 16} {s : State}
    (matching : (s.booking b).matchesArrival n = true) : Evaluated n [b] s (bookingActs n b s).1 := by
  rw [bookingActs_eq]
  have stages := stages_evaluated n b s
  dsimp only
  generalize (((s.counted b).posted n b).started b).1.released b = v at stages
  have frame : ∃ x, v.spent b = { v with notices := { v.notices with bookings := x } } := by
    unfold State.spent
    split <;> exact ⟨_, rfl⟩
  refine ⟨?_, ?_, ?_, ?_, ?_, ?_, fun j hj _ => ?_, fun j hj => ?_⟩
  · obtain ⟨x, e⟩ := frame; rw [e]; exact stages.listStore
  · obtain ⟨x, e⟩ := frame; rw [e]; exact stages.port
  · obtain ⟨x, e⟩ := frame; rw [e]; exact stages.responder
  · obtain ⟨x, e⟩ := frame; rw [e]; exact stages.memory
  · obtain ⟨x, e⟩ := frame; rw [e]; exact stages.station
  · obtain ⟨x, e⟩ := frame; rw [e]; exact stages.ownEchoes
  · obtain rfl := List.mem_singleton.mp hj
    exact State.spent_booking_self (stages.kept j (.inl List.not_mem_nil))
  · have ne : b ≠ j := by
      rintro rfl
      obtain hj | hj := hj
      · exact hj List.mem_cons_self
      · rw [matching] at hj; cases hj
    rw [State.spent_booking_of_ne v ne, stages.kept j (.inl List.not_mem_nil), State.counted_booking_of_ne s ne]

/-! ## The comparison with all bookings -/

theorem compareBookings_of_match {n : NoticeArrival} {b : Fin 16} {s : State}
    (h : (s.booking b).matchesArrival n = true) (rest : List (Fin 16)) : compareBookings n (b :: rest) s =
      ((compareBookings n rest (bookingActs n b s).1).1,
        (bookingActs n b s).2.toList ++ (compareBookings n rest (bookingActs n b s).1).2) := if_pos h

theorem compareBookings_of_mismatch {n : NoticeArrival} {b : Fin 16} {s : State}
    (h : (s.booking b).matchesArrival n = false) (rest : List (Fin 16)) :
    compareBookings n (b :: rest) s = compareBookings n rest s := if_neg (by rw [h]; decide)

theorem compareBookings_evaluated (n : NoticeArrival) (l : List (Fin 16)) (distinct : l.Nodup) (s : State) :
    Evaluated n l s (compareBookings n l s).1 := by
  induction l generalizing s with
  | nil => exact .refl s
  | cons b rest ih =>
    obtain ⟨notMem, distinct⟩ := List.nodup_cons.mp distinct
    cases matching : (s.booking b).matchesArrival n with
    | true =>
      rw [compareBookings_of_match matching]
      exact (bookingActs_evaluated matching).trans (ih distinct _) fun j hj => by
        obtain rfl := List.mem_singleton.mp hj
        exact notMem
    | false =>
      rw [compareBookings_of_mismatch matching]
      have later := ih distinct s
      refine ⟨later.listStore, later.port, later.responder, later.memory, later.station, later.ownEchoes,
        fun j hj hm => ?_, fun j hj => ?_⟩
      · obtain rfl | hj := List.mem_cons.mp hj
        · rw [matching] at hm; cases hm
        · exact later.acted j hj hm
      · exact later.kept j (hj.imp_left fun h mem => h (List.mem_cons_of_mem _ mem))

/-- Where no booking of a list matches, nothing happens. -/
theorem compareBookings_of_none {n : NoticeArrival} {l : List (Fin 16)} {s : State}
    (h : ∀ b ∈ l, (s.booking b).matchesArrival n = false) : compareBookings n l s = (s, []) := by
  induction l with
  | nil => rfl
  | cons b rest ih =>
    rw [compareBookings_of_mismatch (h b List.mem_cons_self)]
    exact ih fun j hj => h j (List.mem_cons_of_mem _ hj)

/-- Where one booking alone matches, it alone acts. -/
theorem compareBookings_of_single {n : NoticeArrival} {b : Fin 16} {l : List (Fin 16)} {s : State} (distinct : l.Nodup)
    (mem : b ∈ l) (matching : (s.booking b).matchesArrival n = true)
    (others : ∀ j, j ≠ b → (s.booking j).matchesArrival n = false) :
    compareBookings n l s = ((bookingActs n b s).1, (bookingActs n b s).2.toList) := by
  induction l with
  | nil => cases mem
  | cons d rest ih =>
    obtain ⟨notMem, distinct⟩ := List.nodup_cons.mp distinct
    by_cases hd : d = b
    · subst hd
      have later : compareBookings n rest (bookingActs n d s).1 = ((bookingActs n d s).1, []) := by
        refine compareBookings_of_none fun j hj => ?_
        have ne : j ≠ d := fun e => notMem (e ▸ hj)
        have same := (bookingActs_evaluated matching).kept j (.inr (others j ne))
        exact (matchesArrival_congr same n).trans (others j ne)
      rw [compareBookings_of_match matching, later]
      simp
    · rw [compareBookings_of_mismatch (others d hd)]
      exact ih distinct ((List.mem_cons.mp mem).resolve_left (Ne.symm hd))

/-! ## The channels that an evaluation reaches -/

/-- A booking's START reaches an IDLE channel of a JOINED station (R136). -/
def State.startsChannel (s : State) (b : Fin 16) (c : Fin 4) : Prop :=
  (s.booking b).start = true ∧ (s.booking b).startChannel = c.val ∧ s.station.state = .joined ∧
    (s.channel c).state = .idle

/-- A booking starts or releases a channel (R136, R137). -/
def State.reaches (s : State) (b : Fin 16) (c : Fin 4) : Prop :=
  s.startsChannel b c ∨ (s.booking b).release = true ∧ s.waitsOn b c = true

section
variable {b : Fin 16} {c : Fin 4} {s t : State}

theorem startsChannel_congr (start : (t.booking b).start = (s.booking b).start)
    (named : (t.booking b).startChannel = (s.booking b).startChannel) (station : t.station = s.station)
    (channel : t.channel c = s.channel c) : t.startsChannel b c ↔ s.startsChannel b c := by
  simp only [State.startsChannel, start, named, station, channel]

theorem waitsOn_congr (channel : t.channel c = s.channel c) : t.waitsOn b c = s.waitsOn b c := by
  simp only [State.waitsOn, channel]

theorem reaches_congr (booking : (t.booking b).unlatched = (s.booking b).unlatched)
    (station : t.station = s.station) (channel : t.channel c = s.channel c) : t.reaches b c ↔ s.reaches b c := by
  obtain ⟨-, start, release, -, named, -⟩ := unlatched_fields booking
  rw [State.reaches, startsChannel_congr start named station channel, waitsOn_congr channel, release, State.reaches]

end

section
variable {b : Fin 16} {c : Fin 4} {s : State}

theorem startAction_of_starts (h : s.startsChannel b c) : startAction b s =
    (s.setChannel c ((s.channel c).start (.booking b)), some ⟨c, (s.booking b).startEntry⟩) := by
  obtain ⟨-, named, joined, idle⟩ := h
  have below : (s.booking b).startChannel < 4 := named ▸ c.isLt
  have channel : (⟨(s.booking b).startChannel, below⟩ : Fin 4) = c := Fin.ext named
  unfold startAction
  simp only [dif_pos below, channel, joined, idle]
  rfl

theorem startAction_of_missed (start : (s.booking b).start = true) (named : (s.booking b).startChannel = c.val)
    (h : ¬ s.startsChannel b c) : startAction b s = (offerDroppable (.startMissed b c) s, none) := by
  have below : (s.booking b).startChannel < 4 := named ▸ c.isLt
  have channel : (⟨(s.booking b).startChannel, below⟩ : Fin 4) = c := Fin.ext named
  have missed : ¬ (decide (s.station.state = .joined) && decide ((s.channel c).state = .idle)) = true := by
    rw [Bool.and_eq_true, decide_eq_true_eq, decide_eq_true_eq]
    exact fun ⟨joined, idle⟩ => h ⟨start, named, joined, idle⟩
  unfold startAction
  simp only [dif_pos below, channel, if_neg missed]

theorem startAction_of_none (h : ¬ (s.booking b).startChannel < 4) : startAction b s = (s, none) := dif_neg h

theorem offerDroppable_apart (e : Event) : Apart c s (offerDroppable e s) :=
  .of_engine (by unfold offerDroppable; split <;> rfl)

/-- START leaves a channel that it does not start. -/
theorem startAction_apart (start : (s.booking b).start = true) (h : ¬ s.startsChannel b c) :
    Apart c s (startAction b s).1 ∧ ∀ st, (startAction b s).2 = some st → st.channel ≠ c := by
  by_cases below : (s.booking b).startChannel < 4
  · by_cases starts : s.startsChannel b ⟨(s.booking b).startChannel, below⟩
    · have ne : (⟨(s.booking b).startChannel, below⟩ : Fin 4) ≠ c := fun e => h (e ▸ starts)
      rw [startAction_of_starts starts]
      refine ⟨setChannel_apart ne .., fun st hst => ?_⟩
      obtain rfl := Option.some.inj hst
      exact ne
    · rw [startAction_of_missed start rfl starts]
      exact ⟨offerDroppable_apart _, nofun⟩
  · rw [startAction_of_none below]
    exact ⟨.refl c s, nofun⟩

/-- RELEASE leaves a channel that does not wait on the booking. -/
theorem releaseAction_apart (h : s.waitsOn b c = false) : Apart c s (releaseAction b s) := by
  unfold releaseAction
  split
  · exact .of_engine rfl
  · refine releaseChannel_foldl_apart _ (fun mem => ?_) s
    rw [List.mem_filter, h] at mem
    exact nomatch mem.2

/-- A matching booking leaves a channel that it does not reach. -/
theorem bookingActs_apart {n : NoticeArrival} (h : ¬ s.reaches b c) :
    Apart c s (bookingActs n b s).1 ∧ ∀ st, (bookingActs n b s).2 = some st → st.channel ≠ c := by
  rw [bookingActs_eq]
  obtain ⟨notStarts, notReleases⟩ := not_or.mp h
  have flags := s.counted_booking_self b
  have posted := (s.counted b).posted_evaluated n b
  have apart : Apart c s ((s.counted b).posted n b) := by
    refine Apart.trans (t := s.counted b) (.of_engine rfl) ?_
    unfold State.posted
    split
    · exact offerDroppable_apart _
    · exact .refl c _
  generalize (s.counted b).posted n b = p at posted apart
  obtain ⟨-, start, release, -, named, -⟩ := unlatched_fields (posted.kept b (.inl List.not_mem_nil))
  rw [flags] at start release named
  have started : Apart c p (p.started b).1 ∧ ∀ st, (p.started b).2 = some st → st.channel ≠ c := by
    unfold State.started
    split
    · next starts =>
      exact startAction_apart starts (mt (startsChannel_congr start named posted.station apart.channel).mp notStarts)
    · exact ⟨.refl c p, nofun⟩
  have begun := p.started_evaluated n b
  generalize p.started b = x at started begun
  obtain ⟨v, st⟩ := x
  obtain ⟨started, which⟩ := started
  obtain ⟨-, -, release', -⟩ := unlatched_fields (begun.kept b (.inl List.not_mem_nil))
  have released : Apart c v (v.released b) := by
    unfold State.released
    split
    · next releases =>
      refine releaseAction_apart (Bool.eq_false_iff.mpr fun waits => notReleases ⟨?_, ?_⟩)
      · rw [← release, ← release']; exact releases
      · rw [← waitsOn_congr (apart.trans started).channel]; exact waits
    · exact .refl c v
  have spent : Apart c (v.released b) ((v.released b).spent b) := by
    unfold State.spent
    split
    · exact .of_engine rfl
    · exact .refl c _
  exact ⟨apart.trans (started.trans (released.trans spent)), which⟩

end

/-- The comparison leaves a channel that no matching booking reaches, and starts it not. -/
theorem compareBookings_apart {n : NoticeArrival} {c : Fin 4} {l : List (Fin 16)} (distinct : l.Nodup) {s : State}
    (h : ∀ b ∈ l, (s.booking b).matchesArrival n = true → ¬ s.reaches b c) :
    Apart c s (compareBookings n l s).1 ∧ ∀ st ∈ (compareBookings n l s).2, st.channel ≠ c := by
  induction l generalizing s with
  | nil => exact ⟨.refl c s, nofun⟩
  | cons b rest ih =>
    obtain ⟨notMem, distinct⟩ := List.nodup_cons.mp distinct
    cases matching : (s.booking b).matchesArrival n with
    | true =>
      obtain ⟨apart, which⟩ := bookingActs_apart (n := n) (h b List.mem_cons_self matching)
      have acted := bookingActs_evaluated matching
      rw [compareBookings_of_match matching]
      generalize bookingActs n b s = x at apart which acted
      obtain ⟨later, others⟩ := ih distinct (s := x.1) fun j hj hm => by
        have ne : j ∉ [b] := fun e => notMem (List.mem_singleton.mp e ▸ hj)
        have same := acted.kept j (.inl ne)
        rw [reaches_congr same acted.station apart.channel]
        exact h j (List.mem_cons_of_mem _ hj) ((matchesArrival_congr same n).symm.trans hm)
      refine ⟨apart.trans later, fun st hst => ?_⟩
      obtain hst | hst := List.mem_append.mp hst
      · exact which st (Option.mem_toList.mp hst)
      · exact others st hst
    | false =>
      rw [compareBookings_of_mismatch matching]
      exact ih distinct fun j hj => h j (List.mem_cons_of_mem _ hj)

/-! ## An arrival -/

/-- The channels started begin their entries once the comparison is complete (R136). -/
def beginStarted (l : List StartedChannel) (s : State) : State :=
  l.foldl (fun s st => beginEntry st.entry st.channel s) s

theorem noticeArrival_of_onTrunk {s : State} (n : NoticeArrival) (on : s.onTrunk = true) : noticeArrival n s =
    beginStarted (compareBookings n (List.finRange 16) s).2 (compareBookings n (List.finRange 16) s).1 := if_pos on

theorem noticeArrival_of_off {s : State} (n : NoticeArrival) (off : s.onTrunk = false) : noticeArrival n s = s :=
  if_neg (by rw [off]; decide)

theorem beginStarted_frame (l : List StartedChannel) (s : State) : EngineFrame s (beginStarted l s) :=
  EngineFrame.foldl (f := fun (s : State) (st : StartedChannel) => beginEntry st.entry st.channel s)
    (fun s st => beginEntry_frame st.entry st.channel s) l s

/-- An arrival on the trunk: every matching booking has acted, and nothing else but channels, tags, queue and events has
changed (R135). -/
theorem noticeArrival_evaluated (n : NoticeArrival) {s : State} (on : s.onTrunk = true) :
    Evaluated n (List.finRange 16) s (noticeArrival n s) := by
  rw [noticeArrival_of_onTrunk n on]
  exact (compareBookings_evaluated n _ (List.nodup_finRange 16) s).after (.of_engine (beginStarted_frame ..))

theorem noticeArrival_channel {n : NoticeArrival} {c : Fin 4} {s : State} (on : s.onTrunk = true)
    (h : ∀ b, (s.booking b).matchesArrival n = true → ¬ s.reaches b c) :
    (noticeArrival n s).channel c = s.channel c := by
  obtain ⟨apart, which⟩ := compareBookings_apart (List.nodup_finRange 16) fun b _ hm => h b hm
  rw [noticeArrival_of_onTrunk n on]
  exact (apart.trans (Apart.foldl _ _ fun s st hst => beginEntry_apart (which st hst) st.entry s)).channel

theorem noticeArrival_of_single {n : NoticeArrival} {b : Fin 16} {s : State} (on : s.onTrunk = true)
    (matching : (s.booking b).matchesArrival n = true)
    (others : ∀ j, j ≠ b → (s.booking j).matchesArrival n = false) :
    noticeArrival n s = beginStarted (bookingActs n b s).2.toList (bookingActs n b s).1 := by
  rw [noticeArrival_of_onTrunk n on,
    compareBookings_of_single (List.nodup_finRange 16) (List.mem_finRange b) matching others]

/-! ## One booking that matches -/

section
variable {b : Fin 16} {s : State}

theorem releaseAction_of_none (h : ∀ c, s.waitsOn b c = false) :
    releaseAction b s = s.setBooking b { s.booking b with latch := true } := by
  have none : (List.finRange 4).filter (s.waitsOn b) = [] := List.filter_eq_nil_iff.mpr fun c _ => by rw [h c]; decide
  unfold releaseAction
  rw [none]

theorem releaseAction_of_some {c : Fin 4} (h : s.waitsOn b c = true) :
    releaseAction b s = ((List.finRange 4).filter (s.waitsOn b)).foldl (fun s c => releaseChannel c s) s := by
  have mem : c ∈ (List.finRange 4).filter (s.waitsOn b) := List.mem_filter.mpr ⟨List.mem_finRange c, h⟩
  unfold releaseAction
  split
  · next none => rw [none] at mem; cases mem
  · rfl

end

/-- The channel that START makes RUNNING waited on no booking, and neither does it then. -/
theorem State.started_waitsOn (s : State) (b : Fin 16) (c : Fin 4) : (s.started b).1.waitsOn b c = s.waitsOn b c := by
  unfold State.started
  split
  · next start =>
    by_cases starts : s.startsChannel b c
    · have idle := starts
      obtain ⟨-, -, -, idle⟩ := idle
      rw [startAction_of_starts starts]
      simp [State.waitsOn, Channel.start, idle]
    · exact waitsOn_congr (startAction_apart start starts).1.channel
  · rfl

/-- An evaluation in which one booking alone matches, stage by stage (R136, R137, R138). -/
theorem noticeArrival_stages {n : NoticeArrival} {b : Fin 16} {s : State} (on : s.onTrunk = true)
    (matching : (s.booking b).matchesArrival n = true) (others : ∀ j, j ≠ b → (s.booking j).matchesArrival n = false)
    (valid : (s.booking b).start = true → (s.booking b).startChannel < 4) :
    let p := (s.counted b).posted n b
    let v := (p.started b).1
    let w := v.released b
    ((s.booking b).start = false → v = p) ∧
    (∀ c, s.startsChannel b c → v = p.setChannel c ((s.channel c).start (.booking b))) ∧
    (∀ c : Fin 4, (s.booking b).start = true → (s.booking b).startChannel = c.val → ¬ s.startsChannel b c →
      v = offerDroppable (.startMissed b c) p) ∧
    ((s.booking b).release = false → w = v) ∧
    ((s.booking b).release = true → (∀ c, s.waitsOn b c = false) →
      w = v.setBooking b { v.booking b with latch := true }) ∧
    ((s.booking b).release = true → (∃ c, s.waitsOn b c = true) →
      State.ChannelsReleased ((List.finRange 4).filter (s.waitsOn b)) v w) ∧
    w.spent b = (if (s.booking b).once then w.setBooking b { w.booking b with state := .spent } else w) ∧
    (∀ c, s.startsChannel b c → noticeArrival n s = beginEntry (s.booking b).startEntry c (w.spent b)) ∧
    ((∀ c, ¬ s.startsChannel b c) → noticeArrival n s = w.spent b) := by
  intro p v w
  have flags := s.counted_booking_self b
  have pEval : Evaluated n [] (s.counted b) p := (s.counted b).posted_evaluated n b
  have vEval : Evaluated n [] p v := p.started_evaluated n b
  have wEval : Evaluated n [] v w := v.released_evaluated n b
  obtain ⟨-, startP, releaseP, onceP, namedP, entryP, -⟩ := unlatched_fields (pEval.kept b (.inl List.not_mem_nil))
  obtain ⟨-, -, releaseV, onceV, -⟩ := unlatched_fields (vEval.kept b (.inl List.not_mem_nil))
  obtain ⟨-, -, -, onceW, -⟩ := unlatched_fields (wEval.kept b (.inl List.not_mem_nil))
  rw [flags] at startP releaseP onceP namedP entryP
  have channelP (c : Fin 4) : p.channel c = s.channel c := by
    show ((s.counted b).posted n b).channel c = s.channel c
    unfold State.posted
    split
    · exact (offerDroppable_apart _).channel
    · rfl
  have startsP (c : Fin 4) : p.startsChannel b c ↔ s.startsChannel b c :=
    startsChannel_congr startP namedP pEval.station (channelP c)
  have waitsV (c : Fin 4) : v.waitsOn b c = s.waitsOn b c :=
    (p.started_waitsOn b c).trans (waitsOn_congr (channelP c))
  have waitsV' : v.waitsOn b = s.waitsOn b := funext waitsV
  have taken : noticeArrival n s = beginStarted (p.started b).2.toList (w.spent b) := by
    rw [noticeArrival_of_single on matching others, bookingActs_eq]
  have started (h : (s.booking b).start = true) : p.started b = startAction b p := if_pos (startP.trans h)
  have missed (c : Fin 4) (start : (s.booking b).start = true) (named : (s.booking b).startChannel = c.val)
      (h : ¬ s.startsChannel b c) : p.started b = (offerDroppable (.startMissed b c) p, none) := by
    rw [started start]
    exact startAction_of_missed (startP.trans start) (namedP.trans named) (mt (startsP c).mp h)
  have idle (h : (s.booking b).start = false) : p.started b = (p, none) := if_neg (by rw [startP.trans h]; decide)
  have starts (c : Fin 4) (h : s.startsChannel b c) : p.started b =
      (p.setChannel c ((s.channel c).start (.booking b)), some ⟨c, (s.booking b).startEntry⟩) := by
    rw [started h.1, startAction_of_starts ((startsP c).mpr h), channelP, entryP]
  have releases (h : (s.booking b).release = true) : w = releaseAction b v := if_pos ((releaseV.trans releaseP).trans h)
  refine ⟨fun h => congrArg Prod.fst (idle h), fun c h => congrArg Prod.fst (starts c h),
    fun c start named h => congrArg Prod.fst (missed c start named h),
    fun h => if_neg (by rw [(releaseV.trans releaseP).trans h]; decide), fun h none => ?_, fun h ⟨c, waits⟩ => ?_, ?_,
    fun c h => ?_, fun none => ?_⟩
  · rw [releases h]
    exact releaseAction_of_none fun c => (waitsV c).trans (none c)
  · rw [releases h, releaseAction_of_some ((waitsV c).trans waits), waitsV']
    exact releaseChannels_channelsReleased ..
  · rw [State.spent, onceW.trans (onceV.trans onceP)]
  · rw [taken, starts c h]
    rfl
  · have silent : (p.started b).2 = Option.none := by
      cases start : (s.booking b).start with
      | false => rw [idle start]
      | true => rw [missed ⟨_, valid start⟩ start rfl (none _)]
    rw [taken, silent]
    rfl

end Sys2Proof.Machine

/-! PROOFS. Notices as they are heard and received (R133, R172). -/

namespace Sys2Proof.Machine

set_option Elab.async false

/-! ## How a notice comes to its evaluation -/

section
variable {n : NoticeArrival} {s : State}

/-- The oldest own notice that waits is heard first (R21). -/
theorem exec_ownNoticeHeard_of_waiting {rest : List NoticeArrival} (h : s.notices.ownEchoes = n :: rest)
    (echo : List Byte) : exec (.ownNoticeHeard echo) s =
      .next (noticeArrival n { s with notices := { s.notices with ownEchoes := rest } }) := by
  refine congrArg Host.Outcome.next ?_
  unfold hearOwnNotice
  rw [h]

/-- An own notice is heard while its try is on the line (R21). -/
theorem exec_ownNoticeHeard_of_line {destination : Nat} {bytes : List Byte} (none : s.notices.ownEchoes = [])
    (line : s.trunk.line = some ⟨.notice destination n, bytes, .live, false⟩)
    (here : destination = 0 ∨ destination = s.ownAddress) : exec (.ownNoticeHeard bytes) s =
      .next (noticeArrival n
        { s with trunk := { s.trunk with line := some ⟨.notice destination n, bytes, .live, true⟩ } }) := by
  have own : s.ownNotice ⟨.notice destination n, bytes, .live, false⟩ = some n := by
    simp [State.ownNotice, here]
  refine congrArg Host.Outcome.next ?_
  unfold hearOwnNotice
  rw [none, line]
  simp [own]

/-- A notice of another station to all stations or to this one (R172). -/
theorem exec_receiveFrame_notice {bytes : List Byte} (silent : s.trunk.line = none)
    (checks : receiveChecks bytes = true) (kind : kindOf bytes = some .notice)
    (other : sourceOf bytes ≠ s.ownAddress)
    (here : destinationOf bytes = 0 ∨ destinationOf bytes = s.ownAddress ∧ s.ownAddress ≤ 40) :
    exec (.receiveFrame ⟨bytes, s.station.config.rate, false⟩) s =
      .next (noticeArrival (noticeOf bytes) (restartSilence (sourceOf bytes) s)) := by
  have here : (destinationOf bytes = (restartSilence (sourceOf bytes) s).ownAddress ∧ destinationOf bytes ≤ 40) ∨
      destinationOf bytes = 0 := by
    rw [restartSilence_ownAddress]
    obtain h | ⟨h, h'⟩ := here
    · exact .inr h
    · exact .inl ⟨h, by omega⟩
  refine congrArg Host.Outcome.next ((receive_of_good silent checks other).trans ?_)
  simp only [routeFrame, kind, if_pos here]

end

/-- Settles O32, by the station state and the way in which the notice comes. -/
theorem noticeEvaluation : Obligations.NoticeEvaluation := by
  unfold Obligations.NoticeEvaluation
  intro n s starts waits effect taken
  have evaluated (i : Instr) (u : State) (run : exec i s = .next (noticeArrival n u))
      (bookings : ∀ b, u.booking b = s.booking b) (channels : ∀ c, u.channel c = s.channel c)
      (state : u.station.state = s.station.state) (listStore : u.listStore = s.listStore) (port : u.port = s.port)
      (responder : u.responder = s.responder) (memory : u.memory = s.memory) : taken i u := by
    have onTrunk : u.onTrunk = s.onTrunk := by simp only [State.onTrunk, state]
    have starts_iff (b : Fin 16) (c : Fin 4) : u.startsChannel b c ↔ starts b c := by
      simp only [State.startsChannel, bookings, channels, state, starts]
    have waits_iff (b : Fin 16) (c : Fin 4) : u.waitsOn b c = true ↔ waits b c := by
      simp only [State.waitsOn, channels, Bool.and_eq_true, decide_eq_true_eq, waits]
    have silent_iff (b : Fin 16) (c : Fin 4) : u.waitsOn b c = false ↔ ¬ waits b c := by
      rw [← waits_iff, Bool.not_eq_true]
    refine ⟨fun on => ⟨_, run, ?_, ?_⟩, fun off => ?_⟩
    · have frame := noticeArrival_evaluated n (s := u) (onTrunk.trans on)
      refine ⟨fun b matching => ?_, fun b mismatch => ?_, fun c unreached => ?_, fun b matching others valid => ?_,
        frame.listStore.trans listStore, frame.port.trans port, frame.responder.trans responder,
        frame.memory.trans memory, frame.station⟩
      · have acted := frame.acted b (List.mem_finRange b) (by rw [bookings]; exact matching)
        rw [bookings] at acted
        obtain ⟨-, -, -, -, -, -, after, count⟩ := unlatched_fields acted
        have armed : (s.booking b).state = .armed := by
          simp only [Booking.matchesArrival, Bool.and_eq_true, decide_eq_true_eq] at matching
          exact matching.1.1
        exact ⟨count, after.trans (by rw [Booking.acted, armed])⟩
      · have kept := frame.kept b (.inr (by rw [bookings]; exact mismatch))
        rw [bookings] at kept
        exact kept
      · rw [noticeArrival_channel (onTrunk.trans on) fun b hm => ?_, channels]
        rw [bookings] at hm
        obtain ⟨notStarts, notReleases⟩ := unreached b hm
        rintro (h | ⟨release, h⟩)
        · exact notStarts ((starts_iff b c).mp h)
        · rw [bookings] at release
          exact notReleases ⟨release, (waits_iff b c).mp h⟩
      · have stages := noticeArrival_stages (b := b) (onTrunk.trans on) (by rw [bookings]; exact matching)
          (fun j hj => by rw [bookings]; exact others j hj) (by rw [bookings]; exact valid)
        intro counted posted
        have posted_eq : (u.counted b).posted n b = posted := by
          have same : u.counted b = counted := by
            unfold State.counted
            rw [bookings]
            rfl
          unfold State.posted
          rw [State.counted_booking_self, bookings, same]
        simp only [posted_eq, bookings, channels, starts_iff, waits_iff, silent_iff] at stages
        obtain ⟨idle, started, missed, kept, latched, released, ends, begun, resting⟩ := stages
        refine ⟨_, _, idle, started, missed, kept, latched, fun release some => ⟨_, fun c => ?_, ?_, released release some⟩,
          fun c h => ?_, fun none => (resting none).trans ends⟩
        · rw [List.mem_filter, waits_iff]
          exact and_iff_right (List.mem_finRange c)
        · exact (List.pairwise_lt_finRange 4).filter _
        · rw [begun c h, ends]
          exact beginEntry_entryBegun ..
    · exact (noticeArrival_evaluated n (s := u) (onTrunk.trans on)).ownEchoes
    · rw [run, noticeArrival_of_off n (onTrunk.trans off)]
  refine ⟨fun rest echo echoes => ?_, fun destination bytes none line here => ?_,
    fun bytes silent checks kind notice other here => ?_⟩
  · exact evaluated _ _ (exec_ownNoticeHeard_of_waiting echoes echo) (fun _ => rfl) (fun _ => rfl) rfl rfl rfl rfl rfl
  · exact evaluated _ _ (exec_ownNoticeHeard_of_line none line here) (fun _ => rfl) (fun _ => rfl) rfl rfl rfl rfl rfl
  · have run := exec_receiveFrame_notice silent checks kind other here
    rw [notice, restartSilence_eq] at run
    rw [restartSilence_eq]
    exact evaluated _ _ run (fun _ => rfl) (fun _ => rfl) rfl rfl rfl rfl rfl

/-- An arrival that one booking matches, in mode EVERY with POST alone, is posted (R136). -/
theorem noticeArrival_of_posted {n : NoticeArrival} {b : Fin 16} {s : State} (on : s.onTrunk = true)
    (matching : (s.booking b).matchesArrival n = true) (others : ∀ j, j ≠ b → (s.booking j).matchesArrival n = false)
    (once : (s.booking b).once = false) (post : (s.booking b).post = true) (start : (s.booking b).start = false)
    (release : (s.booking b).release = false) :
    noticeArrival n s = offerDroppable (.noticeSeen b n.source n.code n.argument) (s.counted b) := by
  obtain ⟨idle, -, -, kept, -, -, ends, -, resting⟩ := noticeArrival_stages on matching others fun h => by
    rw [start] at h; cases h
  have unstarted (c : Fin 4) : ¬ s.startsChannel b c := fun h => by
    have := h.1
    rw [start] at this; cases this
  rw [resting unstarted, ends, if_neg (by rw [once]; decide), kept release, idle start, State.posted,
    State.counted_booking_self, if_pos post]

/-- What a posted event does to the writer and the counters, and to no other block (R182). -/
theorem offerDroppable_posted (e : Event) (s : State) :
    (offerDroppable e s).engine = s.engine ∧ (offerDroppable e s).trunk = s.trunk ∧
    (s.writer.slots.length < 4 → (offerDroppable e s).writer.slots = s.writer.slots ++ [e] ∧
      (offerDroppable e s).writer.dropCount = s.writer.dropCount ∧ (offerDroppable e s).counters = s.counters) ∧
    (4 ≤ s.writer.slots.length → (offerDroppable e s).writer.slots = s.writer.slots ∧
      (offerDroppable e s).writer.dropCount = min (s.writer.dropCount + 1) 65535 ∧
      (offerDroppable e s).counters = { s.counters with droppedEvents := min (s.counters.droppedEvents + 1) 65535 }) ∧
    (offerDroppable e s).station = s.station := by
  unfold offerDroppable
  split
  · next free => exact ⟨rfl, rfl, fun _ => ⟨rfl, rfl, rfl⟩, fun full => absurd free (by omega), rfl⟩
  · next full => exact ⟨rfl, rfl, fun free => absurd free full, fun _ => ⟨rfl, rfl, rfl⟩, rfl⟩

/-- Settles O33, by the number of droppable slots that are taken. -/
theorem noticePosted : Obligations.NoticePosted := by
  unfold Obligations.NoticePosted
  intro n b s on matching others once post start release posted
  refine ⟨fun rest echo echoes => ?_, fun bytes silent checks kind notice other here => ?_⟩
  · let u : State := { s with notices := { s.notices with ownEchoes := rest } }
    have seen := noticeArrival_of_posted (s := u) (b := b) on matching others once post start release
    obtain ⟨engine, trunk, free, full, station⟩ := offerDroppable_posted (.noticeSeen b n.source n.code n.argument)
      (u.counted b)
    exact ⟨_, (exec_ownNoticeHeard_of_waiting echoes echo).trans (congrArg Host.Outcome.next seen),
      ⟨engine, trunk, free, full⟩, station⟩
  · let u : State := { s with station := { s.station with roster := (restartSilence (sourceOf bytes) s).station.roster } }
    have run := exec_receiveFrame_notice silent checks kind other here
    rw [notice, restartSilence_eq] at run
    have seen := noticeArrival_of_posted (s := u) (b := b) on matching others once post start release
    obtain ⟨engine, trunk, free, full, station⟩ := offerDroppable_posted (.noticeSeen b n.source n.code n.argument)
      (u.counted b)
    rw [restartSilence_eq]
    exact ⟨_, run.trans (congrArg Host.Outcome.next seen), ⟨engine, trunk, free, full⟩, station⟩

end Sys2Proof.Machine

/-! PROOFS. The memory access unit and the event writer: the arbiter's grant, the end of a record write, and the
responses to the responder's bursts. -/

namespace Sys2Proof.Machine
set_option Elab.async false

/-! ## The arbiter's grant -/

/-- A requester presents a burst exactly when its next burst is there (R99). -/
theorem requesterBurst_isSome_iff (s : State) (r : Requester) :
    (s.requesterBurst r).isSome = true ↔ ∃ b t, s.Presents r b t := by
  simp only [Option.isSome_iff_exists, requesterBurst_iff]

/-- A requester that presents no burst is passed over. -/
theorem requesterBurst_isSome_of_silent {s : State} {r : Requester} (silent : ∀ b t, ¬ s.Presents r b t) :
    (s.requesterBurst r).isSome = false := by
  rw [Bool.eq_false_iff, ne_eq, requesterBurst_isSome_iff]
  rintro ⟨b, t, h⟩
  exact silent b t h

/-- A requester that presents is another than one that does not. -/
theorem ne_of_silent {s t : State} {r r' : Requester} {b : Burst} (hp : s.Presents r b t)
    (silent : ∀ b t, ¬ s.Presents r' b t) : r ≠ r' := by
  rintro rfl
  exact silent b t hp

/-- With the bus free, the burst of the requester granted goes on the bus, and the requester to the lowest place. -/
theorem grantBus_of_grantee {s t : State} {r : Requester} {b : Burst} (free : s.memory.burst = none)
    (hr : s.grantee = some r) (hp : s.Presents r b t) :
    grantBus s = { t with memory := { t.memory with burst := some b, order := s.memory.order.serve r } } := by
  have hb := (requesterBurst_iff s r b).mpr ⟨t, hp⟩
  unfold grantBus
  simp only [free, hr, hb, Option.isSome_none, Bool.false_eq_true, if_false]
  exact markBegun_of_presents s t r b _ _ hp

/-- With nothing presented, nothing is granted. -/
theorem grantBus_of_no_grantee {s : State} (hr : s.grantee = none) : grantBus s = s := by
  unfold grantBus
  simp only [hr, ite_self]

/-- While a burst is on the bus, nothing is granted. -/
theorem grantBus_of_burst {s : State} (h : s.memory.burst ≠ none) : grantBus s = s := by
  unfold grantBus
  exact if_pos (Option.isSome_iff_ne_none.mpr h)

/-- Settles O47, by the first of the three places whose requester presents a burst. -/
theorem busGrant : Obligations.BusGrant := by
  unfold Obligations.BusGrant
  intro s
  have run : exec .busGrant s = .next (grantBus s) := rfl
  simp only [run, Host.Outcome.next.injEq]
  refine ⟨fun h => grantBus_of_burst h, fun free => ⟨fun b t hp => ?_, fun first b t hp => ?_,
    fun first second b t hp => ?_, fun first second third => ?_⟩⟩
  · have some := (requesterBurst_isSome_iff s _).mpr ⟨b, t, hp⟩
    rw [grantBus_of_grantee free (by simp [State.grantee, some]) hp]
    simp [BusOrder.serve]
  · have some := (requesterBurst_isSome_iff s _).mpr ⟨b, t, hp⟩
    rw [grantBus_of_grantee free (by simp [State.grantee, some, requesterBurst_isSome_of_silent first]) hp]
    simp [BusOrder.serve, ne_of_silent hp first]
  · have some := (requesterBurst_isSome_iff s _).mpr ⟨b, t, hp⟩
    rw [grantBus_of_grantee free (by
      simp [State.grantee, some, requesterBurst_isSome_of_silent first, requesterBurst_isSome_of_silent second]) hp]
    simp [BusOrder.serve, ne_of_silent hp first, ne_of_silent hp second]
  · exact grantBus_of_no_grantee (by simp only [State.grantee, List.find?_cons, List.find?_nil,
      requesterBurst_isSome_of_silent first, requesterBurst_isSome_of_silent second,
      requesterBurst_isSome_of_silent third])

/-! ## The end of a record write -/

/-- The response to the event writer's burst ends its record write (R98, R184). -/
theorem exec_burstResponse_writer {s : State} {b : Burst} {r : RecordWrite} (bus : s.memory.burst = some b)
    (owner : b.owner = .writer) (inFlight : s.writer.inFlight = some r) (error : Bool) (data : Vector Word 16) :
    exec (.burstResponse error data) s =
      .next (recordEnded r error { s with memory := { s.memory with burst := none } }) := by
  have run : exec (.burstResponse error data) s = .next (burstEnds error data s) := rfl
  simp only [run, burstEnds, bus, owner, writerResponse, inFlight]

/-- The record of a channel's slot leaves it (R184). -/
theorem sourcePlaced_channel (c : Fin 4) (s : State) : sourcePlaced (c.castLE (by omega)) s = heldPlaced c s :=
  dif_pos c.isLt

/-- The record of a window's list leaves it (R184). -/
theorem sourcePlaced_window {i : Fin 22} {w : Fin 16} (h : i.val = 4 + w.val) (s : State) :
    sourcePlaced i s = windowPlaced w s := by
  have number : (⟨i.val - 4, by omega⟩ : Fin 16) = w := Fin.ext (by simp only; omega)
  unfold sourcePlaced
  rw [dif_neg (by omega), dif_pos (by omega), number]

section HeldPlaced

variable (c : Fin 4) {s : State} {ch : Channel}

theorem heldPlaced_of_ended (own : s.channel c = ch) {d : Fin 4} {src : StartSource}
    (h : ch.heldSlot = some (.chDone d src) ∨ ch.heldSlot = some (.chStopped d src)) :
    heldPlaced c s = s.setChannel c Channel.reset := by
  rcases h with h | h <;> simp [heldPlaced, own, h]

theorem heldPlaced_of_halted (own : s.channel c = ch) {d src n error detail seg}
    (h : ch.heldSlot = some (.chHalted d src n error detail seg)) :
    heldPlaced c s = s.setChannel c { ch with heldSlot := none, state := .halted } := by
  simp [heldPlaced, own, h]

theorem heldPlaced_of_mark (own : s.channel c = ch) {d n code} (h : ch.heldSlot = some (.chMark d n code)) :
    heldPlaced c s = if ch.state = .running then finishEntry c (s.setChannel c { ch with heldSlot := none })
      else s.setChannel c { ch with heldSlot := none } := by
  simp [heldPlaced, own, h]

theorem heldPlaced_of_tolerated (own : s.channel c = ch) {d n count last}
    (h : ch.heldSlot = some (.chTolerated d n count last)) :
    heldPlaced c s =
      if ch.state = .running then beginEntry (ch.entryIndex + 1) c (s.setChannel c { ch with heldSlot := none })
      else s.setChannel c { ch with heldSlot := none } := by
  simp [heldPlaced, own, h]

end HeldPlaced

/-- Settles O49, by the response, the record's source, and for a channel its held record. -/
theorem recordWriteEnds : Obligations.RecordWriteEnds := by
  unfold Obligations.RecordWriteEnds
  intro data r b s bus owner inFlight idle placed
  have run := fun error => exec_burstResponse_writer bus owner inFlight error data
  have placing : ∀ i, r.source = some i → exec (.burstResponse false data) s = .next (sourcePlaced i placed) :=
    fun i h => by rw [run]; simp only [recordEnded, h]; rfl
  refine ⟨run true, fun h => placing 21 h, fun h => placing 20 h, fun n h e => ?_, fun c h => ?_, fun w h => ?_⟩
  · rw [run]
    simp only [recordEnded, h, e]
    rfl
  · intro emptied
    have own : placed.channel c = s.channel c := rfl
    rw [placing _ h, sourcePlaced_channel]
    refine ⟨fun d src held => ?_, fun d src n error detail seg held => ?_,
      fun d n code held => ⟨fun state => ?_, fun state => ?_⟩,
      fun d n count last held => ⟨fun state => ?_, fun state => ?_⟩⟩
    · rw [heldPlaced_of_ended c own held]
    · rw [heldPlaced_of_halted c own held]
    · rw [heldPlaced_of_mark c own held, if_pos (by exact state)]
      exact ⟨_, rfl, finishEntry_entryFinished c emptied⟩
    · rw [heldPlaced_of_mark c own held, if_neg (by exact state)]
    · rw [heldPlaced_of_tolerated c own held, if_pos (by exact state)]
      exact ⟨_, rfl, beginEntry_entryBegun _ c emptied⟩
    · rw [heldPlaced_of_tolerated c own held, if_neg (by exact state)]
  · obtain ⟨i, source, number⟩ := Option.map_eq_some_iff.mp h
    have events : (placed.window w).events = (s.window w).events := rfl
    rw [placing i source, sourcePlaced_window number]
    unfold windowPlaced
    refine ⟨fun v rest e => ?_, fun v half rest e => ?_, fun v rest e => ?_⟩ <;> simp only [events, e] <;> rfl

/-! ## The end of a work item -/

/-- The memo that an item's result makes, due or not (R114). -/
def WorkItem.memoOf (item : WorkItem) : ItemResult → Option Memo
  | .won v => some ⟨item.tag, item.generation, v, true⟩
  | .lost v => some ⟨item.tag, item.generation, v, false⟩
  | .done _ | .fault => none

theorem WorkItem.newMemo_eq (item : WorkItem) (r : ItemResult) :
    item.newMemo r = if item.memoDue = true then item.memoOf r else none := by
  unfold WorkItem.newMemo WorkItem.memoOf
  cases item.memoDue
  · rfl
  · cases r <;> rfl

/-- What the end of an item, the first of the queue, leaves, with the memory access unit as given (R113, R114, R115,
R124, R126). -/
def WorkItem.Completed (item : WorkItem) (rest : List WorkItem) (source : Fin 40) (discarded : Bool) (memo : Option Memo)
    (answer : QueuedReply) (memory : MemoryUnit) (s t : State) : Prop :=
  t.responder.queue = rest ∧ (rest = [] → t.responder.execution = none) ∧
  (∀ next later, rest = next :: later → ∃ stage, t.responder.execution = some ⟨stage, false⟩ ∧ next.Begins stage) ∧
  t.window item.window = (s.window item.window).complete item.window (t.inWork item.window) ∧
  (∀ i, i ≠ item.window → t.window i = s.window i) ∧
  t.memo source = (if discarded = false ∧ item.memoDue = true ∧ memo ≠ none then memo else s.memo source) ∧
  (∀ a, a ≠ source → t.memo a = s.memo a) ∧
  t.memory = memory ∧
  t.trunk = { s.trunk with replies := s.trunk.replies ++ if discarded then [] else [answer] } ∧
  { t with responder := s.responder, memory := s.memory, trunk := s.trunk } = s

/-- The head item leaves the queue: its window is tested, and the next item begins (R115). -/
theorem leaveQueue_left {item : WorkItem} {rest : List WorkItem} {s : State} (queue : s.responder.queue = item :: rest) :
    let t := leaveQueue item s
    t.responder.queue = rest ∧ (rest = [] → t.responder.execution = none) ∧
    (∀ next later, rest = next :: later → ∃ stage, t.responder.execution = some ⟨stage, false⟩ ∧ next.Begins stage) ∧
    t.window item.window = (s.window item.window).complete item.window (t.inWork item.window) ∧
    (∀ i, i ≠ item.window → t.window i = s.window i) ∧ t.responder.memos = s.responder.memos ∧
    { t with responder := s.responder } = s := by
  intro t
  let left : State := { s with responder := { s.responder with queue := s.responder.queue.tail, execution := none } }
  have shape : t = { testWindow item.window left with
      responder := { (testWindow item.window left).responder with execution := t.responder.execution } } :=
    executeHead_eq _
  have waiting : t.responder.queue = rest := by rw [shape]; exact congrArg List.tail queue
  have begins := (executeHead_execution (testWindow item.window left)).1 rfl
  have windows : ∀ i, t.window i = (testWindow item.window left).window i := fun i => by rw [shape]; rfl
  refine ⟨waiting, fun h => ?_, fun next later h => begins next later (waiting.trans h), ?_, fun i hi => ?_, ?_, ?_⟩
  · have none_left : (testWindow item.window left).responder.queue = [] := by
      rw [← h]; exact congrArg List.tail queue
    show (executeHead (testWindow item.window left)).responder.execution = none
    unfold executeHead
    rw [none_left]
    rfl
  · rw [windows, testWindow_window_self, shape]
    rfl
  · rw [windows, testWindow_window_of_ne (Ne.symm hi)]
    rfl
  · rw [shape]
    rfl
  · rw [shape]
    rfl

/-- The memo written at the end of an item, in what the memory of the source was (R114). -/
theorem writeMemo_memo {item : WorkItem} {source : Fin 40} (h : item.source = source.val + 1) (r : ItemResult)
    (s : State) :
    (writeMemo item r s).memo source =
      (if item.memoDue = true ∧ item.memoOf r ≠ none then item.memoOf r else s.memo source) ∧
    (∀ a, a ≠ source → (writeMemo item r s).memo a = s.memo a) ∧
    writeMemo item r s = { s with responder := { s.responder with memos := (writeMemo item r s).responder.memos } } := by
  unfold writeMemo
  rw [WorkItem.newMemo_eq, h, stationIndex_succ]
  cases due : item.memoDue
  · exact ⟨by simp, fun _ _ => by simp, rfl⟩
  · cases new : item.memoOf r with
    | none => exact ⟨by simp, fun _ _ => by simp, rfl⟩
    | some m => exact ⟨by simp, fun a ha => by simp [State.setMemo_memo_of_ne _ _ (Ne.symm ha)], rfl⟩

/-- What the end of the executing item leaves. -/
theorem completeItem_completed {item : WorkItem} {rest : List WorkItem} {source : Fin 40} {s : State}
    (queue : s.responder.queue = item :: rest) (sender : item.source = source.val + 1) (memory : MemoryUnit)
    (e : Execution) (r : ItemResult) :
    item.Completed rest source e.discarded (item.memoOf r) ⟨item.reply r, true, 0⟩ memory s
      (completeItem item e r { s with memory := memory }) := by
  unfold completeItem
  cases e.discarded with
  | true =>
    rw [if_pos rfl]
    generalize hu : ({ s with memory := memory } : State) = u
    obtain ⟨waiting, last, next, tested, others, memos, kept⟩ := leaveQueue_left (s := u) (item := item) (rest := rest)
      (by rw [← hu]; exact queue)
    have memo : ∀ a, (leaveQueue item u).memo a = s.memo a := fun a =>
      (congrArg (fun m => m[a]) memos).trans (by rw [← hu]; rfl)
    have window : ∀ i, u.window i = s.window i := fun i => by rw [← hu]; rfl
    have whole {α : Type} (f : State → α) : f { leaveQueue item u with responder := u.responder } = f u :=
      congrArg f kept
    refine ⟨waiting, last, next, by rw [← window]; exact tested, fun i hi => (others i hi).trans (window i),
      by simp [memo], fun a _ => memo a, (whole State.memory).trans (by rw [← hu]), ?_, ?_⟩
    · exact (whole State.trunk).trans (by rw [← hu]; simp)
    · refine (whole fun t => { t with responder := s.responder, memory := s.memory, trunk := s.trunk }).trans ?_
      rw [← hu]
  | false =>
    rw [if_neg Bool.false_ne_true]
    obtain ⟨own, other, shape⟩ := writeMemo_memo sender r (placeReply (item.reply r) true { s with memory := memory })
    generalize writeMemo item r (placeReply (item.reply r) true { s with memory := memory }) = u at *
    obtain ⟨waiting, last, next, tested, others, memos, kept⟩ := leaveQueue_left (s := u) (item := item) (rest := rest)
      (by rw [shape]; exact queue)
    have memo : ∀ a, (leaveQueue item u).memo a = u.memo a := fun a => congrArg (fun m => m[a]) memos
    have window : ∀ i, u.window i = s.window i := fun i => by rw [shape]; rfl
    have whole {α : Type} (f : State → α) : f { leaveQueue item u with responder := u.responder } = f u :=
      congrArg f kept
    refine ⟨waiting, last, next, by rw [← window]; exact tested, fun i hi => (others i hi).trans (window i),
      ?_, ?_, ?_, ?_, ?_⟩
    · rw [memo, own]
      simp only [true_and]
      rfl
    · exact fun a ha => (memo a).trans (other a ha)
    · exact (whole State.memory).trans (by rw [shape]; rfl)
    · exact (whole State.trunk).trans (by rw [shape]; rfl)
    · refine (whole fun t => { t with responder := s.responder, memory := s.memory, trunk := s.trunk }).trans ?_
      rw [shape]
      rfl

/-! ## The responses to the responder's bursts -/

/-- The bus is free after a response (R98). -/
def State.busFreed (s : State) : State := { s with memory := { s.memory with burst := none } }

/-- The response to the responder's burst (R98). -/
theorem exec_burstResponse_responder {s : State} {b : Burst} (bus : s.memory.burst = some b)
    (owner : b.owner = .responder) (error : Bool) (data : Vector Word 16) :
    exec (.burstResponse error data) s =
      .next (responderResponse error (if b.write.isSome then [] else data.toList.take b.count)
        s.busFreed) := by
  have run : exec (.burstResponse error data) s = .next (burstEnds error data s) := rfl
  simp only [run, burstEnds, bus, owner]
  rfl

section ResponderResponse

variable {s : State} {item : WorkItem} {rest : List WorkItem} {e : Execution} (words : List Word)
  (queue : s.responder.queue = item :: rest) (running : s.responder.execution = some e)
include queue running

/-- The last words of a read, or fewer (R101). -/
theorem responderResponse_of_reading {a : ReadAccess} (stage : e.stage = .reading a) :
    responderResponse true words s = completeItem item e .fault s ∧
    responderResponse false words s = if 0 < (a.take words).left then setItemStage e (.reading (a.take words)) s
      else completeItem item e (.done (a.take words).got) s := by
  constructor <;> simp [responderResponse, queue, running, stage]

/-- The last words of a write, or fewer (R101). -/
theorem responderResponse_of_writing {a : WriteAccess} (stage : e.stage = .writing a) :
    responderResponse true words s = completeItem item e .fault s ∧
    responderResponse false words s = if a.advance.words ≠ [] then setItemStage e (.writing a.advance) s
      else completeItem item e (.done []) s := by
  constructor <;> simp [responderResponse, queue, running, stage]

/-- The read of a CLAIM (R102). -/
theorem responderResponse_of_claimRead (stage : e.stage = .claimRead) :
    responderResponse true words s = completeItem item e .fault (unlockBus s) ∧
    responderResponse false words s = if words.headD 0 = item.payload.getD 0 0 then
        { setItemStage e (.claimWrite (words.headD 0)) s with
          memory := { s.memory with burst := some ⟨.responder, item.addr, 1, some [item.payload.getD 1 0]⟩ } }
      else completeItem item e (.lost (words.headD 0)) (unlockBus s) := by
  constructor <;> simp [responderResponse, queue, running, stage, setItemStage]

/-- The write of a CLAIM (R102). -/
theorem responderResponse_of_claimWrite {v : Word} (stage : e.stage = .claimWrite v) (error : Bool) :
    responderResponse error words s = completeItem item e (if error then .fault else .won v) (unlockBus s) := by
  cases error <;> simp [responderResponse, queue, running, stage]

end ResponderResponse

/-- A write has words left after a burst exactly when the burst does not hold them all. -/
theorem WriteAccess.advance_words_eq_nil_iff (a : WriteAccess) :
    a.advance.words = [] ↔ a.words.length ≤ a.burstWords := List.drop_eq_nil_iff

/-- The words of a read's burst (R98). -/
theorem ReadAccess.take_of_burst {a : ReadAccess} {b : Burst} (h : a.burstWords = b.count) (words : List Word) :
    a.take words = { a with
      next := a.next + BitVec.ofNat 32 (4 * b.count), left := a.left - b.count, got := a.got ++ words } := by
  unfold ReadAccess.take wordsOn
  rw [h]

/-- Settles O50, by the stage of the executing item and the response. -/
theorem itemResponses : Obligations.ItemResponses := by
  unfold Obligations.ItemResponses
  intro data item rest b source discarded s bus owner queue sender reply completed memo goesOn
  have run := fun error => exec_burstResponse_responder bus owner error data
  have ended : ∀ error stage r, exec (.burstResponse error data) s =
        .next (completeItem item ⟨stage, discarded⟩ r s.busFreed) →
      ∃ t, exec (.burstResponse error data) s = .next t ∧ completed false (item.memoOf r) ⟨item.reply r, true, 0⟩ t :=
    fun _ stage r h => ⟨_, h, completeItem_completed queue sender { s.memory with burst := none } ⟨stage, discarded⟩ r⟩
  have unlocked : ∀ error stage r, exec (.burstResponse error data) s =
        .next (completeItem item ⟨stage, discarded⟩ r (unlockBus s.busFreed)) →
      ∃ t, exec (.burstResponse error data) s = .next t ∧ completed true (item.memoOf r) ⟨item.reply r, true, 0⟩ t :=
    fun _ stage r h => ⟨_, h,
      completeItem_completed queue sender { s.memory with burst := none, lock := false } ⟨stage, discarded⟩ r⟩
  refine ⟨fun a running read count => ?_, fun a running => ?_, fun v running => ?_, fun running read count => ?_,
    fun a running => ?_, fun a running => ?_, fun stage locked running => ?_⟩
  · have next := (responderResponse_of_reading (data.toList.take b.count) (s := s.busFreed) queue running rfl).2
    simp only [ReadAccess.take_of_burst count] at next
    have words : (if b.write.isSome then [] else data.toList.take b.count) = data.toList.take b.count := by
      rw [read]
      rfl
    rw [words] at run
    refine ⟨fun more => ?_, fun last => ended _ (.reading a) (.done _) ?_⟩
    · rw [run, next, if_pos (by omega)]
      rfl
    · rw [run, next, if_neg (by omega)]
  · have next := (responderResponse_of_writing (if b.write.isSome then [] else data.toList.take b.count)
      (s := s.busFreed) queue running rfl).2
    simp only [ne_eq, WriteAccess.advance_words_eq_nil_iff] at next
    refine ⟨fun more => ?_, fun last => ended _ (.writing a) (.done _) ?_⟩
    · rw [run, next, if_pos (by omega)]
      rfl
    · rw [run, next, if_neg (by omega)]
  · exact unlocked _ (.claimWrite v) (.won v) (by
      rw [run, responderResponse_of_claimWrite _ (s := s.busFreed) queue running rfl]; rfl)
  · have next := (responderResponse_of_claimRead (data.toList.take b.count) (s := s.busFreed) queue running rfl).2
    have words : (if b.write.isSome then [] else data.toList.take b.count) = data.toList.take b.count := by
      rw [read]
      rfl
    have first : (data.toList.take b.count).headD 0 = data[0] := by
      rw [count, List.headD_eq_head?_getD, List.head?_take, if_neg (by decide), List.head?_eq_getElem?]
      simp
    rw [words] at run
    rw [first] at next
    refine ⟨fun equal => ?_, fun other => unlocked _ .claimRead (.lost data[0]) ?_⟩
    · rw [run, next, if_pos equal]
      rfl
    · rw [run, next, if_neg other]
  · exact ended _ (.reading a) .fault (by
      rw [run, (responderResponse_of_reading _ (s := s.busFreed) queue running rfl).1])
  · exact ended _ (.writing a) .fault (by
      rw [run, (responderResponse_of_writing _ (s := s.busFreed) queue running rfl).1])
  · rcases locked with rfl | ⟨v, rfl⟩
    · exact unlocked _ .claimRead .fault (by
        rw [run, (responderResponse_of_claimRead _ (s := s.busFreed) queue running rfl).1])
    · exact unlocked _ (.claimWrite v) .fault (by
        rw [run, responderResponse_of_claimWrite _ (s := s.busFreed) queue running rfl]; rfl)

end Sys2Proof.Machine

/-! PROOFS. The preparation of segments: the walk of a buffer chain for a channel's next segment (R51, R84, R92, R93). -/

namespace Sys2Proof.Machine
set_option Elab.async false

/-! ## The walk goes on with a preparation -/

section WalkPreparation

variable {c : Fin 4} {segment : Nat} {q request : WalkRequest} {s : State} {walk : Option Walk}

/-- More words are wanted: the next descriptor is fetched (R92). -/
theorem walkPreparation_of_fetch {d : Word}
    (h : walkOn (s.channel c).captured.chainAddress (s.channel c).walk q = (walk, request, .fetch d)) :
    walkPreparation c segment q s = s.setChannel c { s.channel c with
      walk := walk, preparation := some ⟨segment, .fetching request (descriptorAccess d), false⟩ } := by
  simp only [walkPreparation, h, State.setChannel_channel_self, State.setChannel_channel_set]
  rfl

/-- The chain ends before the last word wanted (R96). -/
theorem walkPreparation_of_short {position : Nat} (running : (s.channel c).state = .running)
    (h : walkOn (s.channel c).captured.chainAddress (s.channel c).walk q = (walk, request, .short position)) :
    State.ChannelFails c .chainShort ⟨none, none, some (BitVec.ofNat 32 position)⟩ segment
      (s.setChannel c { s.channel c with walk := walk, preparation := none }) (walkPreparation c segment q s) := by
  simp only [walkPreparation, h]
  exact failChannel_channelFails c _ _ _ _ (.inl (by rw [State.setChannel_channel_self]; exact running))

variable (h : walkOn (s.channel c).captured.chainAddress (s.channel c).walk q = (walk, request, .placed))
include h

/-- The place of a sweep record's header is kept (R95). -/
theorem walkPreparation_of_header (sweep : (s.channel c).captured.isSweep = true) :
    walkPreparation c segment q s = s.setChannel c { s.channel c with
      walk := walk, preparation := none, prepared := some ⟨segment, []⟩
      sweepHeader := request.pieces.head?.map Piece.addr } := by
  simp only [walkPreparation, h, segmentPlaced, segmentPrepared, State.setChannel_channel_self, sweep, if_true,
    State.setChannel_channel_set]

/-- A READ's segment is prepared with its pieces (R93). -/
theorem walkPreparation_of_read (sweep : (s.channel c).captured.isSweep = false)
    (kind : (s.channel c).captured.kind = some .read) :
    walkPreparation c segment q s = s.setChannel c { s.channel c with
      walk := walk, preparation := none, prepared := some ⟨segment, request.pieces⟩ } := by
  have operation : (s.channel c).captured.operation = .read := by rw [Entry.operation, kind]
  simp only [walkPreparation, h, segmentPlaced, segmentPrepared, State.setChannel_channel_self, sweep, operation,
    if_true, Bool.false_eq_true, if_false, State.setChannel_channel_set]

/-- A WRITE's segment reads the words of its first piece (R93). -/
theorem walkPreparation_of_write (sweep : (s.channel c).captured.isSweep = false)
    (kind : (s.channel c).captured.kind = some .write) {first : Piece} {rest : List Piece}
    (pieces : request.pieces = first :: rest) :
    walkPreparation c segment q s = s.setChannel c { s.channel c with
      walk := walk
      preparation := some ⟨segment,
        .payload request.pieces [] ⟨first.addr, first.addr, first.count, [], false⟩ rest, false⟩ } := by
  have operation : (s.channel c).captured.operation ≠ .read := by rw [Entry.operation, kind]; decide
  simp only [walkPreparation, h, segmentPlaced, State.setChannel_channel_self, sweep, operation, pieces,
    Bool.false_eq_true, if_false, State.setChannel_channel_set]
  rfl

end WalkPreparation

/-! ## The preparation of the next segment -/

/-- A channel that prepares nothing. -/
theorem Channel.preparation_none_eq {ch : Channel} (h : ch.preparation = none) :
    { ch with preparation := none } = ch := by
  rw [← h]

/-- A segment below the end of a READ or WRITE has a word at least (R50). -/
theorem Entry.segmentWords_pos {e : Entry} {n : Nat} (chain : e.usesChain = true) (sweep : e.isSweep = false)
    (h : n < e.segments) : 0 < e.segmentWords n := by
  have claim : e.kind ≠ some .claim := by
    intro k
    simp [Entry.usesChain, k] at chain
  rw [Entry.segments, if_pos chain] at h
  simp only [Entry.segmentWords, claim, chain, sweep, if_false, if_true, Bool.not_false, Bool.and_true]
  omega

/-- A peer that qualifies for a sweep (R85). -/
theorem sweepChoice_isSome {c : Fin 4} {s : State} (h : ∃ i : Fin 40, (s.channel c).sweepCursor ≤ i.val + 1 ∧
    i.val + 1 ≠ s.ownAddress ∧ (s.peer i).present = true ∧
    (s.peer i).mask.getLsbD (s.channel c).captured.window = true) : (s.sweepChoice c).isSome = true := by
  obtain ⟨i, hi⟩ := h
  refine List.find?_isSome.mpr ⟨i, List.mem_finRange i, ?_⟩
  simpa [and_assoc] using hi

/-- With a peer to sweep, or no sweep, the channel prepares its segment (R51, R84). -/
theorem prepareSegment_of_may {c : Fin 4} {s : State} (may : s.mayPrepare c = true)
    (h : (s.channel c).captured.isSweep = false ∨ (s.sweepChoice c).isSome = true) :
    Machine.prepareSegment c s = if (s.channel c).captured.usesChain then
        walkPreparation c (s.channel c).nextSegment
          (if (s.channel c).captured.isSweep then ⟨(s.channel c).sweepPosition, 1, []⟩
            else ⟨16 * (s.channel c).nextSegment, (s.channel c).captured.segmentWords (s.channel c).nextSegment, []⟩) s
      else segmentPrepared c (s.channel c).nextSegment [] s := by
  have goesOn : ((s.channel c).captured.isSweep && (s.sweepChoice c).isNone) = false := by
    rcases h with h | h
    · simp [h]
    · simp [Option.isNone_eq_false_iff.mpr h]
  simp only [Machine.prepareSegment, may, goesOn, Bool.not_true, Bool.false_eq_true, if_false]

/-- Without one, the sweep's entry is finished (R84). -/
theorem prepareSegment_of_swept {c : Fin 4} {s : State} (may : s.mayPrepare c = true)
    (sweep : (s.channel c).captured.isSweep = true) (h : s.sweepChoice c = none) :
    Machine.prepareSegment c s = finishEntry c s := by
  simp only [Machine.prepareSegment, may, sweep, h, Bool.not_true, Bool.false_eq_true, if_false, Option.isNone_none,
    Bool.and_self, if_true]

/-- Settles O41, by the walk's answer. -/
theorem Channel.prepareSegment : Obligations.PrepareSegment := by
  unfold Obligations.PrepareSegment
  intro c s ch e running slot preparation prepared requests below more qualifies
  have run : exec (.prepareSegment c) s = .next (Machine.prepareSegment c s) := rfl
  have may : s.mayPrepare c = true := by
    have left : (e.isSweep || decide (ch.nextSegment < e.segments)) = true := by simpa using more
    simp only [ch, e] at running slot preparation prepared requests below left
    simp [State.mayPrepare, running, slot, preparation, prepared, requests, below, left]
  have bare := Channel.preparation_none_eq preparation
  refine ⟨fun chain peer => ?_, fun chain sweep unwalked => ?_, fun q chain plain swept => ?_,
    fun sweep absent => ⟨?_, fun tolerated => ?_⟩⟩
  · rw [run, prepareSegment_of_may may (peer.imp_right sweepChoice_isSome), if_neg (by exact Bool.eq_false_iff.mp chain)]
    exact congrArg (fun x : Channel => Host.Outcome.next (s.setChannel c { x with
      prepared := some ⟨ch.nextSegment, []⟩ })) bare
  · have fetches : walkOn e.chainAddress ch.walk ⟨16 * ch.nextSegment, e.segmentWords ch.nextSegment, []⟩ =
        (ch.walk, ⟨16 * ch.nextSegment, e.segmentWords ch.nextSegment, []⟩, .fetch e.chainAddress) := by
      rw [unwalked]
      rfl
    rw [run, prepareSegment_of_may may (.inl sweep), if_pos (by exact chain),
      if_neg (by exact Bool.eq_false_iff.mp sweep), walkPreparation_of_fetch fetches]
    rfl
  · have wanted : 0 < q.left := by
      cases sweep : e.isSweep with
      | true => rw [(swept sweep).2]; exact Nat.one_pos
      | false =>
        rw [plain sweep]
        exact Entry.segmentWords_pos chain sweep (more.resolve_left (Bool.eq_false_iff.mp sweep))
    have walks : exec (.prepareSegment c) s = .next (walkPreparation c ch.nextSegment q s) := by
      rw [run]
      cases sweep : e.isSweep with
      | true =>
        rw [prepareSegment_of_may may (.inr (sweepChoice_isSome (swept sweep).1)), if_pos (by exact chain),
          if_pos (by exact sweep), (swept sweep).2]
      | false =>
        rw [prepareSegment_of_may may (.inl sweep), if_pos (by exact chain),
          if_neg (by exact Bool.eq_false_iff.mp sweep), plain sweep]
    obtain ⟨walk, request, answer, walked⟩ : ∃ walk request answer,
        walkOn e.chainAddress ch.walk q = (walk, request, answer) := ⟨_, _, _, rfl⟩
    have bare' : ({ ch with walk := walk, preparation := none } : Channel) = { ch with walk := walk } :=
      congrArg (fun x : Channel => { x with walk := walk }) bare
    refine ⟨walk, request, answer, walked ▸ walkOn_walkGoesOn e.chainAddress ch.walk q wanted, ?_⟩
    rw [walks]
    refine ⟨fun d fetch => ?_, fun placed sweep => ?_, fun placed sweep kind => ?_,
      fun first rest placed sweep kind pieces => ?_, fun position short => ⟨_, rfl, ?_⟩⟩
    · subst fetch
      rw [walkPreparation_of_fetch walked]
    · subst placed
      rw [walkPreparation_of_header walked sweep]
      exact congrArg (fun x : Channel => Host.Outcome.next (s.setChannel c { x with
        prepared := some ⟨ch.nextSegment, []⟩, sweepHeader := request.pieces.head?.map Piece.addr })) bare'
    · subst placed
      rw [walkPreparation_of_read walked sweep kind]
      exact congrArg (fun x : Channel => Host.Outcome.next (s.setChannel c { x with
        prepared := some ⟨ch.nextSegment, request.pieces⟩ })) bare'
    · subst placed
      rw [walkPreparation_of_write walked sweep kind pieces]
    · subst short
      have fails := walkPreparation_of_short (segment := ch.nextSegment) running walked
      rw [bare'] at fails
      exact fails
  · rw [run, prepareSegment_of_swept may sweep (sweepChoice_eq_none (not_exists.mp absent))]
    exact ⟨_, rfl, finishEntry_entryFinished c s⟩
  · rw [run, prepareSegment_of_swept may sweep (sweepChoice_eq_none (not_exists.mp absent))]
    exact congrArg _ ((finishEntry_entryFinished c s).2 (by exact Nat.ne_of_gt tolerated))

end Sys2Proof.Machine

/-! PROOFS. The responses to the engine's bursts: of a preparation, and of a completion write (R92 to R97). -/

namespace Sys2Proof.Machine
set_option Elab.async false

/-! ## The region of a walk -/

/-- The words of a request that lie in the region in use (R92). -/
def Walk.span (w : Walk) (q : WalkRequest) : Nat := min q.left (w.regionStart + w.regionLength - q.position)

/-- A request once the words in the region in use are placed (R92). -/
def Walk.rest (w : Walk) (q : WalkRequest) : WalkRequest :=
  ⟨q.position + w.span q, q.left - w.span q, q.pieces ++ if w.span q = 0 then []
    else [⟨w.regionBase + BitVec.ofNat 32 (4 * (q.position - w.regionStart)), w.span q⟩]⟩

/-- The walk once they are placed (R92). -/
def Walk.advanced (w : Walk) (q : WalkRequest) : Walk :=
  { w with offset := if w.span q = 0 then w.offset else q.position - w.regionStart + w.span q }

section WalkOn

variable (chain : Word) {w : Walk} {q : WalkRequest}

/-- The walk of a region in use, by whether it holds the last word wanted (R92). -/
theorem walkOn_of_region (wanted : 0 < q.left) : walkOn chain (some w) q = (some (w.advanced q), w.rest q,
    if w.span q = q.left then .placed
    else if w.last then .short (w.regionStart + w.regionLength) else .fetch (w.descriptorAddress + 8)) := by
  refine ((walkOn_walkGoesOn chain (some w) q wanted).2 w rfl).trans ?_
  have pieces : (if w.span q = 0 then q.pieces
      else q.pieces ++ [⟨w.regionBase + BitVec.ofNat 32 (4 * (q.position - w.regionStart)), w.span q⟩]) =
      (w.rest q).pieces := by
    unfold Walk.rest
    split <;> simp
  exact congrArg (fun l => (some (w.advanced q), (⟨q.position + w.span q, q.left - w.span q, l⟩ : WalkRequest),
    if w.span q = q.left then WalkAnswer.placed
    else if w.last then .short (w.regionStart + w.regionLength) else .fetch (w.descriptorAddress + 8))) pieces

theorem walkOn_of_placed (wanted : 0 < q.left) (all : w.span q = q.left) :
    walkOn chain (some w) q = (some (w.advanced q), w.rest q, .placed) := by
  rw [walkOn_of_region chain wanted, if_pos all]

theorem walkOn_of_next (wanted : 0 < q.left) (few : w.span q < q.left) (last : w.last = false) :
    walkOn chain (some w) q = (some (w.advanced q), w.rest q, .fetch (w.descriptorAddress + 8)) := by
  rw [walkOn_of_region chain wanted, if_neg (Nat.ne_of_lt few), last]
  rfl

theorem walkOn_of_last (wanted : 0 < q.left) (few : w.span q < q.left) (last : w.last = true) :
    walkOn chain (some w) q = (some (w.advanced q), w.rest q, .short (w.regionStart + w.regionLength)) := by
  rw [walkOn_of_region chain wanted, if_neg (Nat.ne_of_lt few), last]
  rfl

end WalkOn

/-! ## The responses -/

/-- The response to a burst of a channel's preparation (R98). -/
theorem exec_burstResponse_preparation {c : Fin 4} {s : State} {b : Burst} (bus : s.memory.burst = some b)
    (owner : b.owner = .preparation c) (error : Bool) (data : Vector Word 16) :
    exec (.burstResponse error data) s = .next (preparationResponse c error
      (if b.write.isSome then [] else data.toList.take b.count) s.busFreed) := by
  have run : exec (.burstResponse error data) s = .next (burstEnds error data s) := rfl
  simp only [run, burstEnds, bus, owner]
  rfl

/-- The response to a burst of a channel's completion write (R98). -/
theorem exec_burstResponse_completion {c : Fin 4} {s : State} {b : Burst} (bus : s.memory.burst = some b)
    (owner : b.owner = .completion c) (error : Bool) (data : Vector Word 16) :
    exec (.burstResponse error data) s = .next (completionResponse c error
      (if b.write.isSome then [] else data.toList.take b.count) s.busFreed) := by
  have run : exec (.burstResponse error data) s = .next (burstEnds error data s) := rfl
  simp only [run, burstEnds, bus, owner]
  rfl

section PreparationResponse

variable {c : Fin 4} {s : State} {p : Preparation} (words : List Word) (own : (s.channel c).preparation = some p)
include own

/-- The response to a descriptor fetch of a preparation (R92, R97). -/
theorem preparationResponse_of_fetching {q : WalkRequest} {a : ReadAccess} (stage : p.stage = .fetching q a) :
    preparationResponse c true words s = hostFault c p.segment .descriptor a.base (setPreparation c none s) ∧
    preparationResponse c false words s = if 0 < (a.take words).left then
        setPreparation c (some { p with stage := .fetching q (a.take words) }) s
      else if p.dropped then setPreparation c none s
      else walkPreparation c p.segment q
        (s.setChannel c { s.channel c with walk := some ((a.take words).loadWalk (s.channel c).walk) }) := by
  constructor <;> simp [preparationResponse, own, stage]

/-- The response to a payload read of a preparation (R93, R97). -/
theorem preparationResponse_of_payload {placement : List Piece} {got : List Word} {a : ReadAccess} {later : List Piece}
    (stage : p.stage = .payload placement got a later) :
    preparationResponse c true words s = hostFault c p.segment .payload a.base (setPreparation c none s) ∧
    (0 < (a.take words).left → preparationResponse c false words s =
      setPreparation c (some { p with stage := .payload placement got (a.take words) later }) s) ∧
    ((a.take words).left = 0 → p.dropped = true → preparationResponse c false words s = setPreparation c none s) ∧
    ((a.take words).left = 0 → p.dropped = false →
      (later = [] → preparationResponse c false words s = segmentPrepared c p.segment placement
        (s.setChannel c { s.channel c with issueBuffer := got ++ (a.take words).got })) ∧
      (∀ piece rest, later = piece :: rest → preparationResponse c false words s = setPreparation c (some { p with
        stage := .payload placement (got ++ (a.take words).got) (ReadAccess.start piece.addr piece.count) rest })
          s)) := by
  refine ⟨?_, fun more => ?_, fun whole dropped => ?_, fun whole dropped => ⟨fun last => ?_, fun piece rest more => ?_⟩⟩
  · simp [preparationResponse, own, stage]
  · simp [preparationResponse, own, stage, more]
  · simp [preparationResponse, own, stage, whole, dropped]
  · subst last
    simp [preparationResponse, own, stage, whole, dropped]
  · subst more
    simp [preparationResponse, own, stage, whole, dropped]

end PreparationResponse

section CompletionResponse

variable {c : Fin 4} {s : State} {w : CompletionWrite} {later : List CompletionWrite} (words : List Word)
  (own : (s.channel c).writes = w :: later)
include own

/-- The response to a descriptor fetch of a record that is being placed (R95, R97). -/
theorem completionResponse_of_placing {header : Word} {q : WalkRequest} {a : ReadAccess}
    (stage : w.stage = .placing header q a) :
    completionResponse c true words s = writeFaulted c w .descriptor a.base s ∧
    completionResponse c false words s = if 0 < (a.take words).left then
        setWriteStage c w (.placing header q (a.take words)) s
      else walkRecord c w header q
        (s.setChannel c { s.channel c with walk := some ((a.take words).loadWalk (s.channel c).walk) }) := by
  constructor <;> simp [completionResponse, own, stage]

/-- The response to a write access (R94, R97). -/
theorem completionResponse_of_writing {a : WriteAccess} {rest : List WriteAccess}
    (stage : w.stage = .writing (a :: rest)) :
    completionResponse c true words s = writeFaulted c w w.faultAccess a.base s ∧
    completionResponse c false words s = if a.advance.words ≠ [] then setWriteStage c w (.writing (a.advance :: rest)) s
      else if rest ≠ [] then setWriteStage c w (.writing rest) s else writeDone c w (popWrite c s) := by
  constructor <;> simp [completionResponse, own, stage]

end CompletionResponse

/-! ## The end of a completion write -/

/-- The context of a channel whose head write is abandoned: a sweep's cursor stays at the record's peer (R87, R89). -/
def CompletionWrite.abandonedBy (w : CompletionWrite) (later : List CompletionWrite) (ch : Channel) : Channel :=
  { ch with
    writes := later
    sweepCursor := match w.record with
      | some r => r.station
      | none => ch.sweepCursor }

/-- The context of a channel whose head write has placed its segment: a sweep record moves the output position and the
cursor (R86, R95). -/
def CompletionWrite.writtenBy (w : CompletionWrite) (later : List CompletionWrite) (ch : Channel) : Channel :=
  { ch with
    writes := later, completed := ch.completed + 1
    sweepPosition := ch.sweepPosition + (match w.record with
      | some r => 1 + r.words.length
      | none => 0)
    sweepCursor := match w.record with
      | some r => r.station + 1
      | none => ch.sweepCursor }

/-- The release of a write's tag and an update of a channel are apart. -/
theorem releaseOwned_setChannel (tag : Option (Fin 16)) (c : Fin 4) (ch : Channel) (s : State) :
    releaseOwned tag (s.setChannel c ch) = (releaseOwned tag s).setChannel c ch := by
  cases tag <;> rfl

theorem releaseOwned_channel (tag : Option (Fin 16)) (c : Fin 4) (s : State) :
    (releaseOwned tag s).channel c = s.channel c := by
  cases tag <;> rfl

/-- A head write that is abandoned. -/
theorem abandonWrite_of_head {c : Fin 4} {w : CompletionWrite} {later : List CompletionWrite} {s : State}
    (own : (s.channel c).writes = w :: later) :
    abandonWrite c w s = (releaseOwned w.tag s).setChannel c (w.abandonedBy later (s.channel c)) := by
  simp only [abandonWrite, popWrite, releaseOwned_setChannel, own, List.tail_cons, CompletionWrite.abandonedBy,
    moveCursor]
  cases w.record with
  | none => rfl
  | some r => simp

/-- The last words of a write whose tag an exclusion has freed, or whose channel is STOPPING (R39, R45). -/
theorem writeDone_of_dead {c : Fin 4} {w : CompletionWrite} {later : List CompletionWrite} {s : State}
    (own : (s.channel c).writes = w :: later)
    (dead : w.tag = none ∨ (s.channel c).state = .stopping) :
    writeDone c w (popWrite c s) = (releaseOwned w.tag s).setChannel c { s.channel c with writes := later } := by
  have live : (w.tag.isSome && (decide (((popWrite c s).channel c).state = .running) ||
      decide (((popWrite c s).channel c).state = .failing))) = false := by
    rcases dead with dead | dead <;> simp [dead, popWrite]
  simp only [writeDone, live, Bool.false_eq_true, if_false]
  rw [popWrite, releaseOwned_setChannel, own]
  rfl

/-- The last words of a write of a RUNNING or FAILING channel: its segment is completed (R67, R94, R95). -/
theorem writeDone_of_live {c : Fin 4} {w : CompletionWrite} {later : List CompletionWrite} {k : Fin 16} {s : State}
    (own : (s.channel c).writes = w :: later) (tag : w.tag = some k)
    (live : (s.channel c).state = .running ∨ (s.channel c).state = .failing) :
    writeDone c w (popWrite c s) =
      finishIfResolved c ((s.setTag k (s.releasedTag k)).setChannel c (w.writtenBy later (s.channel c))) := by
  have live' : (w.tag.isSome && (decide (((popWrite c s).channel c).state = .running) ||
      decide (((popWrite c s).channel c).state = .failing))) = true := by
    rcases live with live | live <;> simp [live, tag, popWrite]
  have popped : releaseOwned w.tag (popWrite c s) =
      (s.setTag k (s.releasedTag k)).setChannel c { s.channel c with writes := later } := by
    rw [popWrite, releaseOwned_setChannel, own, tag]
    rfl
  simp only [writeDone, live', if_true, popped, moveCursor, resolveSegment, State.setChannel_channel_self,
    State.setChannel_channel_set, CompletionWrite.writtenBy, SweepRecord.length]
  cases w.record with
  | none => simp
  | some r => simp only [State.setChannel_channel_self, State.setChannel_channel_set]

/-! ## The walk goes on in a region in use -/

section InRegion

variable {c : Fin 4} {segment : Nat} {ch : Channel} {s : State} {w : Walk} {q : WalkRequest} (region : ch.walk = some w)
include region

/-- What the walk answers, with the channel's walk in a region. -/
theorem walkOn_setChannel {after : Option Walk × WalkRequest × WalkAnswer}
    (h : walkOn ch.captured.chainAddress (some w) q = after) :
    walkOn ((s.setChannel c ch).channel c).captured.chainAddress ((s.setChannel c ch).channel c).walk q = after := by
  rw [State.setChannel_channel_self, region]
  exact h

variable (wanted : 0 < q.left)
include wanted

theorem walkPreparation_header_placed (all : w.span q = q.left) (sweep : ch.captured.isSweep = true) :
    walkPreparation c segment q (s.setChannel c ch) = s.setChannel c { ch with
      walk := some (w.advanced q), preparation := none, prepared := some ⟨segment, []⟩
      sweepHeader := (w.rest q).pieces.head?.map Piece.addr } := by
  rw [walkPreparation_of_header (walkOn_setChannel region (walkOn_of_placed _ wanted all))
    (by rw [State.setChannel_channel_self]; exact sweep)]
  simp only [State.setChannel_channel_self, State.setChannel_channel_set]

theorem walkPreparation_read_placed (all : w.span q = q.left) (sweep : ch.captured.isSweep = false)
    (kind : ch.captured.kind = some .read) :
    walkPreparation c segment q (s.setChannel c ch) = s.setChannel c { ch with
      walk := some (w.advanced q), preparation := none, prepared := some ⟨segment, (w.rest q).pieces⟩ } := by
  rw [walkPreparation_of_read (walkOn_setChannel region (walkOn_of_placed _ wanted all))
    (by rw [State.setChannel_channel_self]; exact sweep) (by rw [State.setChannel_channel_self]; exact kind)]
  simp only [State.setChannel_channel_self, State.setChannel_channel_set]

theorem walkPreparation_write_placed (all : w.span q = q.left) (sweep : ch.captured.isSweep = false)
    (kind : ch.captured.kind = some .write) {first : Piece} {rest : List Piece}
    (pieces : (w.rest q).pieces = first :: rest) :
    walkPreparation c segment q (s.setChannel c ch) = s.setChannel c { ch with
      walk := some (w.advanced q)
      preparation := some ⟨segment,
        .payload (w.rest q).pieces [] ⟨first.addr, first.addr, first.count, [], false⟩ rest, false⟩ } := by
  rw [walkPreparation_of_write (walkOn_setChannel region (walkOn_of_placed _ wanted all))
    (by rw [State.setChannel_channel_self]; exact sweep) (by rw [State.setChannel_channel_self]; exact kind) pieces]
  simp only [State.setChannel_channel_self, State.setChannel_channel_set]

theorem walkPreparation_next_descriptor (few : w.span q < q.left) (last : w.last = false) :
    walkPreparation c segment q (s.setChannel c ch) = s.setChannel c { ch with
      walk := some (w.advanced q)
      preparation := some ⟨segment, .fetching (w.rest q) (descriptorAccess (w.descriptorAddress + 8)), false⟩ } := by
  rw [walkPreparation_of_fetch (walkOn_setChannel region (walkOn_of_next _ wanted few last))]
  simp only [State.setChannel_channel_self, State.setChannel_channel_set]

theorem walkPreparation_chain_short (running : ch.state = .running) (few : w.span q < q.left) (last : w.last = true) :
    State.ChannelFails c .chainShort ⟨none, none, some (BitVec.ofNat 32 (w.regionStart + w.regionLength))⟩ segment
      (s.setChannel c { ch with walk := some (w.advanced q), preparation := none })
      (walkPreparation c segment q (s.setChannel c ch)) := by
  have fails := walkPreparation_of_short (segment := segment) (by rw [State.setChannel_channel_self]; exact running)
    (walkOn_setChannel region (s := s) (c := c) (walkOn_of_last _ wanted few last))
  simpa only [State.setChannel_channel_self, State.setChannel_channel_set] using fails

variable {write : CompletionWrite} {later : List CompletionWrite} {header : Word} (own : ch.writes = write :: later)
include own

/-- The record's data words are placed: its accesses wait, the header's first (R95). -/
theorem walkRecord_placed (all : w.span q = q.left) {r : SweepRecord} (record : write.record = some r) :
    walkRecord c write header q (s.setChannel c ch) = s.setChannel c { ch with
      walk := some (w.advanced q)
      writes := { write with
        stage := .writing (⟨header, header, [r.header]⟩ :: writesOf (w.rest q).pieces r.words) } :: later } := by
  simp only [walkRecord, State.setChannel_channel_self, region, walkOn_of_placed _ wanted all, record, setWriteStage,
    State.setChannel_channel_set, own, List.tail_cons]
  rfl

theorem walkRecord_next_descriptor (few : w.span q < q.left) (last : w.last = false) :
    walkRecord c write header q (s.setChannel c ch) = s.setChannel c { ch with
      walk := some (w.advanced q)
      writes := { write with
        stage := .placing header (w.rest q) (descriptorAccess (w.descriptorAddress + 8)) } :: later } := by
  simp only [walkRecord, State.setChannel_channel_self, region, walkOn_of_next _ wanted few last, setWriteStage,
    State.setChannel_channel_set, own, List.tail_cons]
  rfl

theorem walkRecord_chain_short (few : w.span q < q.left) (last : w.last = true) :
    State.SegmentFails c .chainShort ⟨none, none, some (BitVec.ofNat 32 (w.regionStart + w.regionLength))⟩ write.segment
      ((releaseOwned write.tag s).setChannel c (write.abandonedBy later { ch with walk := some (w.advanced q) }))
      (walkRecord c write header q (s.setChannel c ch)) := by
  have abandoned : abandonWrite c write (s.setChannel c { ch with walk := some (w.advanced q) }) =
      (releaseOwned write.tag s).setChannel c (write.abandonedBy later { ch with walk := some (w.advanced q) }) := by
    rw [abandonWrite_of_head (by rw [State.setChannel_channel_self]; exact own), releaseOwned_setChannel,
      State.setChannel_channel_set, State.setChannel_channel_self]
  simp only [walkRecord, State.setChannel_channel_self, region, walkOn_of_last _ wanted few last,
    State.setChannel_channel_set, abandoned]
  exact failChannel_segmentFails ..

end InRegion

/-! ## The obligation -/

/-- Settles O51, by the access whose burst has ended, its response, and what the walk or the write goes on with. -/
theorem hostFaultResponse : Obligations.HostFaultResponse := by
  unfold Obligations.HostFaultResponse
  intro data c b s bus _ ch words idle faulted further regionStart word1 length base offset here pieces walked whole more
    nextDescriptor shortAt
  have read : b.write = none → (if b.write.isSome then [] else data.toList.take b.count) = words := fun h => by
    rw [h]
    rfl
  let loaded (a : ReadAccess) : Walk := (further a).loadWalk ch.walk
  let reached (a : ReadAccess) : Channel := { ch with walk := some (loaded a) }
  refine ⟨fun p owner own => ⟨fun q a stage => ?_, fun placement got a later stage => ?_⟩, fun w later owner own => ?_⟩
  · have run := fun error => exec_burstResponse_preparation bus owner error data
    have cases := fun l => preparationResponse_of_fetching (s := s.busFreed) l own stage
    have next : b.write = none → a.burstWords = b.count → exec (.burstResponse false data) s = .next
        (if 0 < a.left - b.count then setPreparation c (some { p with stage := .fetching q (further a) }) s.busFreed
        else if p.dropped then setPreparation c none s.busFreed
        else walkPreparation c p.segment q (s.busFreed.setChannel c { ch with walk := some (loaded a) })) :=
      fun none count => by
        rw [run, read none, (cases words).2, ReadAccess.take_of_burst count]
        rfl
    refine ⟨⟨_, (run true).trans (congrArg _ (cases _).1), failChannel_segmentFails ..⟩, fun none count few => ?_,
      fun none count all dropped => ?_, fun none count all dropped running wanted _ => ?_⟩
    · rw [next none count, if_pos (Nat.sub_pos_of_lt few)]
      rfl
    · rw [next none count, if_neg (by omega), if_pos dropped]
      rfl
    · rw [next none count, if_neg (by omega), if_neg (by rw [dropped]; decide)]
      refine ⟨fun span sweep => ?_, fun span sweep kind => ?_, fun first rest span sweep kind pieces => ?_,
        fun span last => ?_, fun span last => ⟨_, rfl, ?_⟩⟩
      · exact congrArg _ (walkPreparation_header_placed (ch := reached a) (w := loaded a) rfl wanted span sweep)
      · exact congrArg _ (walkPreparation_read_placed (ch := reached a) (w := loaded a) rfl wanted span sweep kind)
      · exact congrArg _
          (walkPreparation_write_placed (ch := reached a) (w := loaded a) rfl wanted span sweep kind pieces)
      · exact congrArg _ (walkPreparation_next_descriptor (ch := reached a) (w := loaded a) rfl wanted span last)
      · exact walkPreparation_chain_short (ch := reached a) (w := loaded a) rfl wanted running span last
  · have run := fun error => exec_burstResponse_preparation bus owner error data
    have cases := fun l => preparationResponse_of_payload (s := s.busFreed) l own stage
    have next : b.write = none → a.burstWords = b.count → exec (.burstResponse false data) s =
        .next (preparationResponse c false words s.busFreed) := fun none _ => by rw [run, read none]
    have left : b.write = none → a.burstWords = b.count → (a.take words).left = a.left - b.count := fun _ count =>
      congrArg ReadAccess.left (ReadAccess.take_of_burst count words)
    obtain ⟨-, goesOn, drops, ends⟩ := cases words
    refine ⟨⟨_, (run true).trans (congrArg _ (cases _).1), failChannel_segmentFails ..⟩, fun none count few => ?_,
      fun none count all dropped => ?_, fun none count all dropped running => ?_⟩
    · rw [next none count, goesOn (by rw [left none count]; exact Nat.sub_pos_of_lt few), ReadAccess.take_of_burst count]
      rfl
    · rw [next none count, drops (by rw [left none count, all, Nat.sub_self]) dropped]
      rfl
    · obtain ⟨prepares, reads⟩ := ends (by rw [left none count, all, Nat.sub_self]) dropped
      refine ⟨fun last => ?_, fun piece rest more => ?_⟩
      · rw [next none count, prepares last, segmentPrepared, State.setChannel_channel_self, State.setChannel_channel_set,
          List.append_assoc]
        rfl
      · rw [next none count, reads piece rest more, List.append_assoc]
        rfl
  · intro staged released abandoned
    have run := fun error => exec_burstResponse_completion bus owner error data
    have head : (s.busFreed.channel c).writes = w :: later := own
    have leaves : ∀ x : Channel, (releaseOwned w.tag s.busFreed).setChannel c (w.abandonedBy later x) = abandoned x :=
      fun _ => rfl
    have faults : ∀ access addr, State.SegmentFails c .hostFault ⟨none, some access.code, some addr⟩ w.segment
        (abandoned ch) (writeFaulted c w access addr s.busFreed) := fun access addr => by
      rw [writeFaulted, abandonWrite_of_head head]
      exact failChannel_segmentFails ..
    refine ⟨fun header q a stage => ?_, fun a rest stage => ?_⟩
    · have cases := fun l => completionResponse_of_placing l head stage
      have next : b.write = none → a.burstWords = b.count → exec (.burstResponse false data) s = .next
          (if 0 < a.left - b.count then setWriteStage c w (.placing header q (further a)) s.busFreed
          else walkRecord c w header q (s.busFreed.setChannel c (reached a))) := fun none count => by
        rw [run, read none, (cases words).2, ReadAccess.take_of_burst count]
        rfl
      refine ⟨⟨_, (run true).trans (congrArg _ (cases _).1), faults .descriptor a.base⟩, fun none count few => ?_,
        fun none count all wanted _ => ?_⟩
      · rw [next none count, if_pos (Nat.sub_pos_of_lt few), setWriteStage, head]
        rfl
      · rw [next none count, if_neg (by omega)]
        refine ⟨fun r span record => ?_, fun span last => ?_, fun span last => ⟨_, rfl, ?_⟩⟩
        · exact congrArg _ (walkRecord_placed (ch := reached a) (w := loaded a) rfl wanted own span record)
        · exact congrArg _ (walkRecord_next_descriptor (ch := reached a) (w := loaded a) rfl wanted own span last)
        · exact walkRecord_chain_short (ch := reached a) (w := loaded a) rfl wanted own span last
    · have cases := fun l => completionResponse_of_writing l head stage
      have next : exec (.burstResponse false data) s = .next
          (if a.words.length ≤ a.burstWords then
            if rest = [] then writeDone c w (popWrite c s.busFreed) else setWriteStage c w (.writing rest) s.busFreed
          else setWriteStage c w (.writing (a.advance :: rest)) s.busFreed) := by
        rw [run, (cases _).2]
        simp only [ne_eq, WriteAccess.advance_words_eq_nil_iff, ite_not]
      have access : w.faultAccess.code = if w.record = none then 3 else 4 := by
        unfold CompletionWrite.faultAccess
        cases w.record <;> rfl
      refine ⟨⟨_, (run true).trans (congrArg _ (cases _).1), access ▸ faults w.faultAccess a.base⟩, fun more => ?_,
        fun all more => ?_, fun k all last tag => ?_, fun all last freed => ?_⟩
      · rw [next, if_neg (Nat.not_le.mpr more), setWriteStage, head]
        rfl
      · rw [next, if_pos all, if_neg more, setWriteStage, head]
        rfl
      · rw [next, if_pos all, if_pos last]
        intro written done
        have ends : ∀ h, writeDone c w (popWrite c s.busFreed) = finishIfResolved c done := writeDone_of_live head tag
        have own_done : done.channel c = written := State.setChannel_channel_self ..
        obtain ⟨finishes, stays⟩ := finishIfResolved_cases c done
        rw [own_done] at finishes stays
        refine ⟨fun stopping => ?_, fun failing => ?_, fun running more => ?_, fun running plain resolved => ?_⟩
        · rw [writeDone_of_dead head (.inr stopping), tag]
          rfl
        · rw [ends (.inr failing), stays (.inl failing)]
        · rw [ends (.inl running), stays (.inr more)]
        · exact ⟨_, congrArg _ (ends (.inl running)), finishes running plain resolved⟩
      · rw [next, if_pos all, if_pos last, writeDone_of_dead head (.inl freed), freed]
        rfl

end Sys2Proof.Machine
